-- ==== Sys2Proof/Word.lean ====
section
/-! DEFINITION. The word types of the Ithera IX4410 and their plainest arithmetic: bytes of the command port and
the back channel, and values of the 32-bit microsecond time base. -/

namespace Sys2Proof

/-- A byte of a command frame, a response frame or a status return (R167, R186, R189). -/
abbrev Byte := BitVec 8

/-- A 16-bit number as a command body carries it, little-endian (R186). -/
abbrev Half := BitVec 16

/-- A value of the time base: a 32-bit count of microseconds that wraps to 0 (R185). -/
abbrev Time := BitVec 32

/-- A count that stays at its largest value `top` once it gets there ("saturating"). -/
def satSucc (top n : Nat) : Nat := min top (n + 1)

/-- A saturating addition held at `top`. -/
def satAdd (top n k : Nat) : Nat := min top (n + k)

end Sys2Proof
end

