-- ==== Sys2Proof/Config.lean ====
section
/-! DEFINITION. What the IX4410 manual leaves open to the model as a free value, and the fixed codes of the command port
that the manual gives (R187). -/

namespace Sys2Proof.Config

/-- FREE VALUE (log entry 2). Where two or more timed events fall due at one value of the time base the manual lets them be
taken in either order (R61, R62, R84, R85, R94, R95). The n-th such choice of an idle step is this value, taken modulo the
number of events due. It has no body: nothing can be proved of it. -/
opaque dueOrder : Nat → Nat

/-- The fetch code, 240 (R187). -/
def fetchCode : Byte := 240

/-- The filler value the port drives on MISO when it has nothing to send, 0 (R187). -/
def filler : Byte := 0

/-- The largest body length a command frame may carry, 250 (R187). -/
def maxBody : Nat := 250

end Sys2Proof.Config
end

