-- ==== Sys2Proof/Syntax.lean ====
section
/-! DEFINITION. The commands and events of the IX4410: one constructor of `Instr` for each row of
spec/opcode_table.json, with the operands the command frame (R187, R188), the packet (section 3.2), the status return (R189) or
the event carries. Operands of command frames are the raw numbers of the frame, in or out of range: the owning block's
checks read them. -/

namespace Sys2Proof

/-- A picture input port (section "The IX4410 in a vehicle"). -/
inductive InputId where
  | a | b | c | d
deriving DecidableEq, Repr

/-- A screen, and the composer and screen link that serve it. -/
inductive Screen where
  | s0 | s1 | s2 | s3
deriving DecidableEq, Repr

/-- A timing domain (Chapter 5). -/
inductive Domain where
  | front | rear
deriving DecidableEq, Repr

/-- A rectangle as a command body carries it: four two-byte numbers (R188). -/
structure RawRect where
  x : Half
  y : Half
  w : Half
  h : Half
deriving DecidableEq, Repr

/-- A colour as a command body carries it: three two-byte numbers (R186). -/
structure RawColour where
  r : Half
  g : Half
  b : Half
deriving DecidableEq, Repr

/-- A key as a command body carries it (R188, field 7). -/
structure RawKey where
  predicate : Byte
  span : Byte
  colour : RawColour
deriving DecidableEq, Repr

/-- One field of a placement image as the frame carries it, numbered 1 to 15 as R188 gives. `none` is presence byte 0. The last
three name the fixed fields, which no AMEND may change (R19). -/
inductive RawField where
  | source (v : Byte)
  | sourceRect (v : Option RawRect)
  | targetRect (v : RawRect)
  | layer (v : Byte)
  | opacity (v : Half)
  | blend (v : Byte)
  | key (v : Option RawKey)
  | policy (v : Byte)
  | alternate (v : Option Byte)
  | fill (v : RawColour)
  | holdLimit (v : Byte)
  | choices (v : Option (List Byte))
  | fixedScreen (v : Byte)
  | fixedClass (v : Byte)
  | fixedSelectable (v : Byte)
deriving DecidableEq, Repr

/-- The field number of R188. -/
def RawField.number : RawField → Nat
  | .source _ => 1
  | .sourceRect _ => 2
  | .targetRect _ => 3
  | .layer _ => 4
  | .opacity _ => 5
  | .blend _ => 6
  | .key _ => 7
  | .policy _ => 8
  | .alternate _ => 9
  | .fill _ => 10
  | .holdLimit _ => 11
  | .choices _ => 12
  | .fixedScreen _ => 13
  | .fixedClass _ => 14
  | .fixedSelectable _ => 15

/-- The whole image an OPEN carries: all twelve drawing fields (R188). -/
structure RawImage where
  source : Byte
  sourceRect : Option RawRect
  targetRect : RawRect
  layer : Byte
  opacity : Half
  blend : Byte
  key : Option RawKey
  policy : Byte
  alternate : Option Byte
  fill : RawColour
  holdLimit : Byte
  choices : Option (List Byte)
deriving DecidableEq, Repr

/-- The twelve fields of a whole image in the order of their numbers (R188). -/
def RawImage.fields (m : RawImage) : List RawField :=
  [.source m.source, .sourceRect m.sourceRect, .targetRect m.targetRect, .layer m.layer, .opacity m.opacity, .blend m.blend,
   .key m.key, .policy m.policy, .alternate m.alternate, .fill m.fill, .holdLimit m.holdLimit, .choices m.choices]

/-- The lock part of a SET_DOMAIN body (R187): presence byte 0, presence byte 1 with its two fields, or a presence byte
the layout does not know, at which the port stops working out the length (R169, R186). -/
inductive RawLock where
  | absent
  | present (input : Byte) (delay : Half)
  | unknown
deriving DecidableEq, Repr

/-- Why the port rejects a command frame, in the order in which the cases are tested (R169). -/
inductive RejectReason where
  | shortFrame | unknownCode | lengthOutOfRange | bodyShort | bodyLong | lengthMismatch
deriving DecidableEq, Repr

/-- A pixel as the lane layer delivers it: three channels at the input's configured depth (section 3.2). -/
structure RawPixel where
  r : BitVec 10
  g : BitVec 10
  b : BitVec 10
deriving DecidableEq, Repr

/-- The pixel field of a LINE packet, read at the input's configured depth (section 3.2, R56): a whole number of pixels, or a
size that is no whole number of pixels. -/
inductive PixelField where
  | whole (pixels : List RawPixel)
  | ragged
deriving DecidableEq, Repr

/-- The commands and events of the part, one for each row of spec/opcode_table.json. A list operand is `none` where the port
could not work out the frame's length to its end because an item named something the layout does not know (R169). -/
inductive Instr where
  /-- OPEN (R18). -/
  | openPlacement (screen cls selectable : Byte) (image : Option RawImage)
  /-- AMEND (R19, R20). -/
  | amend (handle expected unconditional : Byte) (entries : Option (List RawField))
  /-- RETIRE (R21). -/
  | retire (handle expected unconditional : Byte)
  /-- COMMIT (R29). -/
  | commit (screens : Option (List Byte))
  /-- FREEZE (R22). -/
  | freeze (handle : Byte)
  /-- THAW (R22). -/
  | thaw (handle : Byte)
  /-- LOOKUP (R23). -/
  | lookup (handle : Byte)
  /-- LIST_SCREEN (R24). -/
  | listScreen (screen : Byte)
  /-- LIST_SOURCE (R25). -/
  | listSource (input : Byte)
  /-- SET_SOURCE (R67, R68). -/
  | setSource (input : Byte) (width height : Half) (depth : Byte) (period tolerance : Half) (lockCount lossCount : Byte)
  /-- RESET_SOURCE (R70). -/
  | resetSource (input : Byte)
  /-- QUERY_SOURCE (R71). -/
  | querySource (input : Byte)
  /-- SET_SCREEN (R162). -/
  | setScreen (screen : Byte) (width height : Half) (depth threshold : Byte)
  /-- SET_SCREEN_TONE (R163). -/
  | setScreenTone (screen : Byte) (background : RawColour) (gain : Half)
  /-- ENABLE_LINK (R159). -/
  | enableLink (screen : Byte)
  /-- DISABLE_LINK (R160). -/
  | disableLink (screen : Byte)
  /-- RESET_LINK (R161). -/
  | resetLink (screen : Byte)
  /-- QUERY_SCREEN (R164). -/
  | queryScreen (screen : Byte)
  /-- SET_DOMAIN (R99). -/
  | setDomain (domain mode : Byte) (period : Half) (lock : RawLock)
  /-- QUERY_DOMAIN (R101). -/
  | queryDomain (domain : Byte)
  /-- TAKE_NOTICE (R179). -/
  | takeNotice
  /-- MASK_NOTICES (R182): pairs of kind and mask. -/
  | maskNotices (entries : Option (List (Byte × Byte)))
  /-- COMMAND_FRAME_REJECTED (R169): the reason, and the command code received or none for a short frame. -/
  | commandFrameRejected (reason : RejectReason) (code : Option Byte)
  /-- FETCH_TRANSACTION (R171): how many complete bytes the head unit clocks after the fetch code. -/
  | fetchTransaction (clocked : Nat)
  /-- FRAME_START (R54), with its sender tag. -/
  | frameStart (input : InputId) (tag : Half)
  /-- LINE (R56). -/
  | line (input : InputId) (index : Half) (field : PixelField)
  /-- FRAME_END (R58). -/
  | frameEnd (input : InputId)
  /-- DISCARDED_PACKET (R53): a damaged packet, or one of no known kind. -/
  | discardedPacket (input : InputId)
  /-- MISSING_FRAME_EXPIRY (R61). -/
  | missingFrameExpiry (input : InputId)
  /-- DOMAIN_FRAME_START (R90). -/
  | domainFrameStart (domain : Domain)
  /-- TRAINING_WINDOW_EXPIRY (R153): the frame start at which the link's window runs out. -/
  | trainingWindowExpiry (screen : Screen)
  /-- LINK_RESET_END (R161): the frame start at which the link's reset ends. -/
  | linkResetEnd (screen : Screen)
  /-- LINE_HANDOVER (R109). -/
  | lineHandover (screen : Screen)
  /-- STATUS_RETURN (R148, R149, R189): whether the integrity check passed, and the bytes before it. -/
  | statusReturn (screen : Screen) (sound : Bool) (bytes : List Byte)
  /-- RESETN_ASSERT (R184): RESETn falls. -/
  | resetnAssert
  /-- RESETN_RELEASE (R184): RESETn rises. -/
  | resetnRelease
deriving DecidableEq, Repr

end Sys2Proof
end

