-- ==== Sys2Proof/WellFormed.lean ====
section
/-! DEFINITION. Which commands a frame, a packet or a status return can spell: the lists within the lengths the layouts carry
(R169, R187, R188), and a rejection whose reason fits its code (R169). Values outside a field's own range are well formed:
the owning block's checks refuse them with BAD_FIELD. -/

namespace Sys2Proof

/-- A choice list holds at most 8 entries in a frame (R188: a count above 8 ends the port's work). -/
def choicesFit : Option (List Byte) → Bool
  | none => true
  | some l => l.length ≤ 8

/-- An AMEND entry the port could work out to its end (R188). -/
def RawField.wf : RawField → Bool
  | .choices v => choicesFit v
  | _ => true

/-- Is this byte the code of one of the 22 commands (R187)? -/
def isCommandCode (c : Byte) : Bool := 1 ≤ c.toNat && c.toNat ≤ 22

/-- A rejection carries no code exactly for a short frame, and an unknown code exactly with its reason (R169). -/
def rejectionFits : RejectReason → Option Byte → Bool
  | .shortFrame, code => code.isNone
  | .unknownCode, some c => !isCommandCode c && c != Config.fetchCode
  | _, some c => isCommandCode c
  | _, none => false

/-- The commands that some frame, packet, return or event spells. -/
def Instr.wf : Instr → Bool
  | .openPlacement _ _ _ (some m) => choicesFit m.choices
  | .amend _ _ _ (some es) => es.length ≤ 15 && es.all RawField.wf
  | .commit (some l) => l.length ≤ 4
  | .maskNotices (some l) => 1 ≤ l.length && l.length ≤ 9
  | .commandFrameRejected reason code => rejectionFits reason code
  | _ => true

end Sys2Proof
end

