-- ==== Sys2Proof/Decode.lean ====
section
/-! DEFINITION. Reading a transaction of the command port and a status return from their bytes: the framing check of R169 over the
layouts of R187 and R188, and the parse of R189. The opcode table gives no row any bits, so `decodeTableWord` reads none. -/

namespace Sys2Proof

/-- What the port's walk over a body gives: an item and the bytes left, a body that ended too early, or an item that names
something the layout does not know, where the port stops working out the length (R169). -/
inductive Parsed (α : Type) where
  | ok (value : α) (rest : List Byte)
  | short
  | unknown
deriving DecidableEq, Repr

/-- A walk over the bytes of a body. -/
abbrev Parser (α : Type) := List Byte → Parsed α

/-- The walk that reads nothing. -/
def Parser.done {α : Type} (a : α) : Parser α := fun bs => .ok a bs

/-- One walk and then another over the bytes it leaves. -/
def Parser.andThen {α β : Type} (p : Parser α) (f : α → Parser β) : Parser β := fun bs =>
  match p bs with
  | .ok a rest => f a rest
  | .short => .short
  | .unknown => .unknown

/-- A one-byte item. -/
def readByte : Parser Byte
  | [] => .short
  | b :: bs => .ok b bs

/-- A two-byte number, little-endian (R186). -/
def readHalf : Parser Half
  | lo :: hi :: bs => .ok (hi ++ lo) bs
  | _ => .short

/-- `n` one-byte items. -/
def readBytes : Nat → Parser (List Byte)
  | 0 => Parser.done []
  | n + 1 => readByte.andThen fun b => (readBytes n).andThen fun bs => Parser.done (b :: bs)

/-- A presence byte, 1 when the field follows and 0 when it does not; any other value is unknown to the layout (R186, R188). -/
def readOption {α : Type} (p : Parser α) : Parser (Option α) :=
  readByte.andThen fun mark =>
    if mark = 0 then Parser.done none
    else if mark = 1 then p.andThen fun a => Parser.done (some a)
    else fun _ => .unknown

/-- A rectangle of four two-byte numbers (R188). -/
def readRect : Parser RawRect :=
  readHalf.andThen fun x => readHalf.andThen fun y => readHalf.andThen fun w => readHalf.andThen fun h => Parser.done ⟨x, y, w, h⟩

/-- A colour of three two-byte numbers (R186). -/
def readColour : Parser RawColour :=
  readHalf.andThen fun r => readHalf.andThen fun g => readHalf.andThen fun b => Parser.done ⟨r, g, b⟩

/-- A key: predicate, span and key colour (R188). -/
def readKey : Parser RawKey :=
  readByte.andThen fun p => readByte.andThen fun s => readColour.andThen fun c => Parser.done ⟨p, s, c⟩

/-- A choice list: its count and that many inputs; a count above 8 ends the port's work (R188). -/
def readChoices : Parser (List Byte) :=
  readByte.andThen fun n => if n.toNat ≤ 8 then readBytes n.toNat else fun _ => .unknown

/-- The value of the field with this number, 1 to 15 (R188). -/
def readFieldValue (number : Byte) : Parser RawField :=
  match number.toNat with
  | 1 => readByte.andThen fun v => Parser.done (.source v)
  | 2 => (readOption readRect).andThen fun v => Parser.done (.sourceRect v)
  | 3 => readRect.andThen fun v => Parser.done (.targetRect v)
  | 4 => readByte.andThen fun v => Parser.done (.layer v)
  | 5 => readHalf.andThen fun v => Parser.done (.opacity v)
  | 6 => readByte.andThen fun v => Parser.done (.blend v)
  | 7 => (readOption readKey).andThen fun v => Parser.done (.key v)
  | 8 => readByte.andThen fun v => Parser.done (.policy v)
  | 9 => (readOption readByte).andThen fun v => Parser.done (.alternate v)
  | 10 => readColour.andThen fun v => Parser.done (.fill v)
  | 11 => readByte.andThen fun v => Parser.done (.holdLimit v)
  | 12 => (readOption readChoices).andThen fun v => Parser.done (.choices v)
  | 13 => readByte.andThen fun v => Parser.done (.fixedScreen v)
  | 14 => readByte.andThen fun v => Parser.done (.fixedClass v)
  | 15 => readByte.andThen fun v => Parser.done (.fixedSelectable v)
  | _ => fun _ => .unknown

/-- An AMEND entry: a field number and its value (R188). -/
def readEntry : Parser RawField := readByte.andThen readFieldValue

/-- `n` AMEND entries. -/
def readEntries : Nat → Parser (List RawField)
  | 0 => Parser.done []
  | n + 1 => readEntry.andThen fun e => (readEntries n).andThen fun es => Parser.done (e :: es)

/-- A whole image: the twelve fields in the order of their numbers (R188). -/
def readImage : Parser RawImage :=
  readByte.andThen fun source =>
  (readOption readRect).andThen fun sourceRect =>
  readRect.andThen fun targetRect =>
  readByte.andThen fun layer =>
  readHalf.andThen fun opacity =>
  readByte.andThen fun blend =>
  (readOption readKey).andThen fun key =>
  readByte.andThen fun policy =>
  (readOption readByte).andThen fun alternate =>
  readColour.andThen fun fill =>
  readByte.andThen fun holdLimit =>
  (readOption readChoices).andThen fun choices =>
  Parser.done ⟨source, sourceRect, targetRect, layer, opacity, blend, key, policy, alternate, fill, holdLimit, choices⟩

/-- `n` pairs of kind and mask (R187). -/
def readPairs : Nat → Parser (List (Byte × Byte))
  | 0 => Parser.done []
  | n + 1 => readByte.andThen fun k => readByte.andThen fun m => (readPairs n).andThen fun l => Parser.done ((k, m) :: l)

/-- A walk whose stop at an unknown item hands the frame to its owner all the same (R169): the item then reads as `none`. -/
def handOver {α : Type} (p : Parser α) : Parser (Option α) := fun bs =>
  match p bs with
  | .ok a rest => .ok (some a) rest
  | .short => .short
  | .unknown => .ok none []

/-- The body of a SET_DOMAIN after domain, mode and FREE period (R187). -/
def readLock : Parser RawLock := fun bs =>
  match readOption (readByte.andThen fun i => readHalf.andThen fun d => Parser.done (i, d)) bs with
  | .ok none rest => .ok .absent rest
  | .ok (some (i, d)) rest => .ok (.present i d) rest
  | .short => .short
  | .unknown => .ok .unknown []

/-- The layout of the body of each command, by its code (R187). `none` for a code of no command. -/
def readBody (code : Byte) : Option (Parser Instr) :=
  match code.toNat with
  | 1 => some <| readByte.andThen fun s => readByte.andThen fun c => readByte.andThen fun l =>
      (handOver readImage).andThen fun m => Parser.done (.openPlacement s c l m)
  | 2 => some <| readByte.andThen fun h => readByte.andThen fun g => readByte.andThen fun u =>
      (handOver (readByte.andThen fun n => if n.toNat ≤ 15 then readEntries n.toNat else fun _ => .unknown)).andThen fun es =>
        Parser.done (.amend h g u es)
  | 3 => some <| readByte.andThen fun h => readByte.andThen fun g => readByte.andThen fun u => Parser.done (.retire h g u)
  | 4 => some <| (handOver (readByte.andThen fun n => if n.toNat ≤ 4 then readBytes n.toNat else fun _ => .unknown)).andThen fun l =>
      Parser.done (.commit l)
  | 5 => some <| readByte.andThen fun h => Parser.done (.freeze h)
  | 6 => some <| readByte.andThen fun h => Parser.done (.thaw h)
  | 7 => some <| readByte.andThen fun h => Parser.done (.lookup h)
  | 8 => some <| readByte.andThen fun s => Parser.done (.listScreen s)
  | 9 => some <| readByte.andThen fun i => Parser.done (.listSource i)
  | 10 => some <| readByte.andThen fun i => readHalf.andThen fun w => readHalf.andThen fun h => readByte.andThen fun d =>
      readHalf.andThen fun p => readHalf.andThen fun t => readByte.andThen fun n => readByte.andThen fun m =>
        Parser.done (.setSource i w h d p t n m)
  | 11 => some <| readByte.andThen fun i => Parser.done (.resetSource i)
  | 12 => some <| readByte.andThen fun i => Parser.done (.querySource i)
  | 13 => some <| readByte.andThen fun s => readHalf.andThen fun w => readHalf.andThen fun h => readByte.andThen fun d =>
      readByte.andThen fun t => Parser.done (.setScreen s w h d t)
  | 14 => some <| readByte.andThen fun s => readColour.andThen fun c => readHalf.andThen fun g => Parser.done (.setScreenTone s c g)
  | 15 => some <| readByte.andThen fun s => Parser.done (.enableLink s)
  | 16 => some <| readByte.andThen fun s => Parser.done (.disableLink s)
  | 17 => some <| readByte.andThen fun s => Parser.done (.resetLink s)
  | 18 => some <| readByte.andThen fun s => Parser.done (.queryScreen s)
  | 19 => some <| readByte.andThen fun d => readByte.andThen fun m => readHalf.andThen fun p => readLock.andThen fun l =>
      Parser.done (.setDomain d m p l)
  | 20 => some <| readByte.andThen fun d => Parser.done (.queryDomain d)
  | 21 => some <| Parser.done .takeNotice
  | 22 => some <| (handOver (readByte.andThen fun n =>
      if 1 ≤ n.toNat ∧ n.toNat ≤ 9 then readPairs n.toNat else fun _ => .unknown)).andThen fun l => Parser.done (.maskNotices l)
  | _ => none

/-- The framing check of a command transaction after its two first bytes, in the order of R169. -/
def decodeFrame (code length : Byte) (body : List Byte) : Instr :=
  match readBody code with
  | none => .commandFrameRejected .unknownCode (some code)
  | some walk =>
    if Config.maxBody < length.toNat then .commandFrameRejected .lengthOutOfRange (some code)
    else if body.length < length.toNat then .commandFrameRejected .bodyShort (some code)
    else if length.toNat < body.length then .commandFrameRejected .bodyLong (some code)
    else match walk body with
      | .ok i [] => i
      | _ => .commandFrameRejected .lengthMismatch (some code)

/-- The command that a whole transaction spells, by its complete bytes (R167, R169): none for a transaction without a complete
byte, which has no effect; a fetch when the first byte is the fetch code; otherwise the command or its rejection. -/
def decodeTransaction : List Byte → Option Instr
  | [] => none
  | code :: rest =>
    if code = Config.fetchCode then some (.fetchTransaction rest.length)
    else match rest with
      | [] => some (.commandFrameRejected .shortFrame none)
      | length :: body => some (decodeFrame code length body)

/-- The receiver state of a status return (R148). -/
inductive ReceiverState where
  | training | trained
deriving DecidableEq, Repr

/-- The panel condition of a status return (R148). -/
inductive PanelCondition where
  | ok | fault
deriving DecidableEq, Repr

/-- A sound status return (R148). -/
structure StatusReturn where
  presented : Nat
  receiver : ReceiverState
  panel : PanelCondition
  errors : Nat
  choice : Option Nat
deriving DecidableEq, Repr

/-- A one-byte enumeration of two values (R189). -/
def twoWay {α : Type} (v : Byte) (zero one : α) : Option α :=
  if v = 0 then some zero else if v = 1 then some one else none

/-- The choice byte of a status return: 0–7 a choice, 255 none, and 8–254 damage (R189). -/
def decodeChoice (v : Byte) : Option (Option Nat) :=
  if v.toNat ≤ 7 then some (some v.toNat) else if v = 255 then some none else none

/-- The sound status return that these bytes are, or none when the return is damaged (R189). -/
def decodeReturn (sound : Bool) (bytes : List Byte) : Option StatusReturn :=
  match sound, bytes with
  | true, [p0, p1, receiver, panel, errors, choice] =>
    match twoWay receiver ReceiverState.training .trained, twoWay panel PanelCondition.ok .fault, decodeChoice choice with
    | some r, some p, some c => some ⟨p0.toNat + 256 * p1.toNat, r, p, errors.toNat, c⟩
    | _, _, _ => none
  | _, _ => none

/-- The command a word of the opcode table spells. The table gives no row of this part any bits, so no word spells one. -/
def decodeTableWord (_nbits _w : Nat) : Option Instr := none

end Sys2Proof
end

