-- ==== Sys2Proof/Machine/State.lean ====
section
/-! DEFINITION. The state of the IX4410 as plain data: the placement table, the four inputs with their slots, the two domains, the
four composers and screen links, the command port, the notice unit, the time base and the reset input, and the queue of
waiting commands; and the state after release of RESETn. -/

namespace Sys2Proof.Machine

/-! ### Families of like things -/

/-- One value for each input. -/
structure PerInput (α : Type) where
  a : α
  b : α
  c : α
  d : α
deriving DecidableEq, Repr

/-- The value of one input. -/
def PerInput.get {α : Type} (p : PerInput α) : InputId → α
  | .a => p.a
  | .b => p.b
  | .c => p.c
  | .d => p.d

/-- Replace the value of one input. -/
def PerInput.set {α : Type} (p : PerInput α) (i : InputId) (v : α) : PerInput α :=
  match i with
  | .a => { p with a := v }
  | .b => { p with b := v }
  | .c => { p with c := v }
  | .d => { p with d := v }

/-- One value for each screen. -/
structure PerScreen (α : Type) where
  s0 : α
  s1 : α
  s2 : α
  s3 : α
deriving DecidableEq, Repr

/-- The value of one screen. -/
def PerScreen.get {α : Type} (p : PerScreen α) : Screen → α
  | .s0 => p.s0
  | .s1 => p.s1
  | .s2 => p.s2
  | .s3 => p.s3

/-- Replace the value of one screen. -/
def PerScreen.set {α : Type} (p : PerScreen α) (i : Screen) (v : α) : PerScreen α :=
  match i with
  | .s0 => { p with s0 := v }
  | .s1 => { p with s1 := v }
  | .s2 => { p with s2 := v }
  | .s3 => { p with s3 := v }

/-- One value for each timing domain. -/
structure PerDomain (α : Type) where
  front : α
  rear : α
deriving DecidableEq, Repr

/-- The value of one domain. -/
def PerDomain.get {α : Type} (p : PerDomain α) : Domain → α
  | .front => p.front
  | .rear => p.rear

/-- Replace the value of one domain. -/
def PerDomain.set {α : Type} (p : PerDomain α) (i : Domain) (v : α) : PerDomain α :=
  match i with
  | .front => { p with front := v }
  | .rear => { p with rear := v }

/-- The index of a slot within its input, 0 to 4 (R73). -/
inductive SlotIndex where
  | k0 | k1 | k2 | k3 | k4
deriving DecidableEq, Repr

/-- One value for each of an input's five slots. -/
structure PerSlot (α : Type) where
  k0 : α
  k1 : α
  k2 : α
  k3 : α
  k4 : α
deriving DecidableEq, Repr

/-- The value of one slot. -/
def PerSlot.get {α : Type} (p : PerSlot α) : SlotIndex → α
  | .k0 => p.k0
  | .k1 => p.k1
  | .k2 => p.k2
  | .k3 => p.k3
  | .k4 => p.k4

/-- Replace the value of one slot. -/
def PerSlot.set {α : Type} (p : PerSlot α) (i : SlotIndex) (v : α) : PerSlot α :=
  match i with
  | .k0 => { p with k0 := v }
  | .k1 => { p with k1 := v }
  | .k2 => { p with k2 := v }
  | .k3 => { p with k3 := v }
  | .k4 => { p with k4 := v }

/-- The four inputs in their fixed order. -/
def allInputs : List InputId := [.a, .b, .c, .d]

/-- The four screens in their fixed order. -/
def allScreens : List Screen := [.s0, .s1, .s2, .s3]

/-- The two domains in their fixed order. -/
def allDomains : List Domain := [.front, .rear]

/-- The five slots of an input, lowest number first. -/
def allSlots : List SlotIndex := [.k0, .k1, .k2, .k3, .k4]

/-- A handle: the index of a placement record, 0–63 (R1). -/
abbrev Handle := Fin 64

/-- The 64 handles, ascending. -/
def allHandles : List Handle := List.finRange 64

/-! ### Placements (Chapter 1) -/

/-- A colour of three channels, each worked as a 10-bit value 0–1023. A pixel of a slot is one as well (R73). -/
structure Colour where
  r : Nat
  g : Nat
  b : Nat
deriving DecidableEq, Repr

/-- A rectangle: left column, top line, width and height. -/
structure Rect where
  x : Nat
  y : Nat
  w : Nat
  h : Nat
deriving DecidableEq, Repr

/-- What a placement draws from: an input, or SOLID (R7). -/
inductive Source where
  | input (i : InputId)
  | solid
deriving DecidableEq, Repr

/-- The class of a placement (R5). -/
inductive PlacementClass where
  | ordinary | safety
deriving DecidableEq, Repr

/-- The blend of a placement (R8). -/
inductive Blend where
  | over | add
deriving DecidableEq, Repr

/-- The policy of a placement (R10). -/
inductive Policy where
  | hold | fill | alternate | hide
deriving DecidableEq, Repr

/-- The predicate of a key (R9, R117). -/
inductive Predicate where
  | eq | lt | le | unord | neq | nlt | nle | ord
deriving DecidableEq, Repr

/-- The span of a key (R9, R118). -/
inductive Span where
  | packed | single
deriving DecidableEq, Repr

/-- A key (R9). -/
structure Key where
  predicate : Predicate
  span : Span
  colour : Colour
deriving DecidableEq, Repr

/-- The drawing fields of a placement: one image (R6). -/
structure Image where
  source : Source
  sourceRect : Option Rect
  target : Rect
  layer : Nat
  opacity : Nat
  blend : Blend
  key : Option Key
  policy : Policy
  alternate : Option InputId
  fill : Colour
  holdLimit : Nat
  choices : Option (List InputId)
deriving DecidableEq, Repr

/-- What a LIVE placement shows (R12, R126). -/
inductive View where
  | showing | holding | filled | alternate | hidden | frozen
deriving DecidableEq, Repr

/-- A freeze request (R4). -/
inductive FreezeRequest where
  | freeze | thaw
deriving DecidableEq, Repr

/-- The name of a slot: its input and index (R73). -/
structure SlotRef where
  input : InputId
  index : SlotIndex
deriving DecidableEq, Repr

/-- What a NEW or LIVE record holds: the fixed fields of R5, the two images of R6, the flags of R4 and the runtime fields of R12. The
committed image is absent exactly while the record is NEW (R6). -/
structure Placement where
  screen : Screen
  cls : PlacementClass
  selectable : Bool
  committed : Option Image
  staged : Image
  armed : Bool
  retireStaged : Bool
  frozen : Bool
  freezeRequest : Option FreezeRequest
  view : Option View
  latched : Option SlotRef
  age : Nat
  lastFrame : Nat
  liveSince : Option Nat
  joinPosition : Option Nat
deriving DecidableEq, Repr

/-- A record of the placement table: its generation, which belongs to the handle (R2), and what it holds unless FREE (R3). -/
structure Record where
  generation : BitVec 8
  body : Option Placement
deriving DecidableEq, Repr

/-- The states of a record (R1). -/
inductive RecordState where
  | free | new | live
deriving DecidableEq, Repr

/-- The state of a record: FREE without fields, NEW without a committed image, LIVE with one (R3, R6). -/
def Record.state (r : Record) : RecordState :=
  match r.body with
  | none => .free
  | some p => if p.committed.isSome then .live else .new

/-- The placement table: 64 records addressed by handles (R1). -/
abbrev Table := Vector Record 64

/-! ### Inputs and the picture store (Chapters 3 and 4) -/

/-- The configuration of an input (R51, R67). -/
structure SourceConfig where
  width : Nat
  height : Nat
  depth : Nat
  period : Nat
  tolerance : Nat
  lockCount : Nat
  lossCount : Nat
deriving DecidableEq, Repr

/-- The states of a source monitor (R62). -/
inductive MonitorState where
  | absent | acquiring | locked | lost
deriving DecidableEq, Repr

/-- The period verdict of a FRAME_START (R52, R54). -/
inductive PeriodVerdict where
  | met | missed | notChecked
deriving DecidableEq, Repr

/-- The open frame of an input (R52). `lines` is the set of line indices received, as a rising list without repeats. -/
structure OpenFrame where
  slot : Option SlotIndex
  lines : List Nat
  damage : Bool
  verdict : PeriodVerdict
deriving DecidableEq, Repr

/-- The states of a slot (R73, R74). -/
inductive SlotState where
  | free | filling | ready
deriving DecidableEq, Repr

/-- A slot: its record (R73) and the pixels of its stored lines. `lines` pairs each stored line's index with its pixels, indices
strictly rising; a line not listed is not stored, and nothing can be read of it (R82, R88). -/
structure Slot where
  state : SlotState
  latest : Bool
  holders : Nat
  frameNumber : Nat
  geometry : Option (Nat × Nat)
  lines : List (Nat × List Colour)
deriving DecidableEq, Repr

/-- The context of an input (R51), with its five slots (R73). -/
structure InputContext where
  config : SourceConfig
  monitor : MonitorState
  goodRun : Nat
  badRun : Nat
  openFrame : Option OpenFrame
  previousStart : Option Time
  frameNumber : Nat
  timestamp : Time
  measuredPeriod : Option Nat
  senderTag : Half
  timer : Option Time
  badFrames : Nat
  dropped : Nat
  slots : PerSlot Slot
deriving DecidableEq, Repr

/-! ### Timing domains (Chapter 5) -/

/-- The mode of a domain's settings; LOCK names its lock input and lock delay (R89, R99). -/
inductive DomainMode where
  | free
  | lock (input : InputId) (delay : Nat)
deriving DecidableEq, Repr

/-- The settings of a domain (R89). -/
structure DomainSettings where
  mode : DomainMode
  freePeriod : Nat
deriving DecidableEq, Repr

/-- The mode state of a domain (R89). -/
inductive ModeState where
  | free | locked | holdover
deriving DecidableEq, Repr

/-- The sync state of a domain (R103). -/
inductive SyncState where
  | unsynced | synced | syncLost
deriving DecidableEq, Repr

/-- The verdict on an interval (R102). -/
inductive IntervalVerdict where
  | agree | disagree | neutral
deriving DecidableEq, Repr

/-- The summary a link hands its domain at a frame start (R102). -/
structure Summary where
  up : Bool
  presented : Option Nat
deriving DecidableEq, Repr

/-- The context of a domain (R89). -/
structure DomainContext where
  settings : DomainSettings
  pendingSettings : Option DomainSettings
  mode : ModeState
  heldPeriod : Option Nat
  nextStart : Time
  runningPeriod : Nat
  frameNumber : Nat
  lastStart : Time
  sync : SyncState
  agreeingRun : Nat
  verdict : Option IntervalVerdict
  summaries : Option (Summary × Summary)
deriving DecidableEq, Repr

/-! ### Composers (Chapter 6) -/

/-- What a placement samples throughout one frame (R108): the slot read, the origin and the source size; the fill colour at every pixel;
or nothing. -/
inductive Sampling where
  | slot (ref : SlotRef) (ox oy ws hs : Nat)
  | solid
  | nothing
deriving DecidableEq, Repr

/-- The drawing parameters of one placement for one frame (R108). The key is absent where the table of R108 applies none. -/
structure DrawParams where
  handle : Handle
  target : Rect
  sampling : Sampling
  key : Option Key
  opacity : Nat
  blend : Blend
  fill : Colour
deriving DecidableEq, Repr

/-- The frame in composition (R106): its number, the geometry and depth it began with (R162), the drawing parameters of
its placements in drawing order, and the next line to be delivered. -/
structure Composition where
  frame : Nat
  width : Nat
  height : Nat
  depth : Nat
  draws : List DrawParams
  nextLine : Nat
deriving DecidableEq, Repr

/-- The context of a composer: the background and gain in effect and the frame in composition (R106), and the screen's last applied
frame number (R44). The screen's width, height and depth stand in the link's screen configuration. -/
structure Composer where
  background : Colour
  gain : Nat
  composition : Option Composition
  lastApplied : Nat
deriving DecidableEq, Repr

/-! ### Screen links (Chapter 8) -/

/-- The configuration of a screen (R144). -/
structure ScreenConfig where
  width : Nat
  height : Nat
  depth : Nat
  threshold : Nat
deriving DecidableEq, Repr

/-- The stored tone of a screen (R144). -/
structure Tone where
  background : Colour
  gain : Nat
deriving DecidableEq, Repr

/-- The states of a link (R144). -/
inductive LinkState where
  | down | training | up | recovering | halted | resetting
deriving DecidableEq, Repr

/-- The interval record of a link (R149). -/
structure IntervalRecord where
  returned : Bool
  trainedSeen : Bool
  overThreshold : Bool
  presented : Option Nat
deriving DecidableEq, Repr

/-- The frame in transmission: its number and the LINE units sent (R144). -/
structure Transmission where
  frame : Nat
  linesSent : Nat
deriving DecidableEq, Repr

/-- A message a link sends forward (section 8.2), and the begin of the reset pattern (R147, R161). -/
inductive LinkMessage where
  | frameHead (frame width height depth : Nat)
  | line (index : Nat) (pixels : List Colour)
  | frameTail (linesSent : Nat)
  | trainingFrame (frame width height depth : Nat)
  | resetPattern
deriving DecidableEq, Repr

/-- The context of a screen link (R144). `sent` is the model's own record of the forward lane: the messages sent, oldest first. -/
structure LinkContext where
  config : ScreenConfig
  tone : Tone
  state : LinkState
  trainedRun : Nat
  windowCount : Nat
  missingRun : Nat
  errorRun : Nat
  resetCount : Option Nat
  interval : IntervalRecord
  transmission : Option Transmission
  lastReturn : Option StatusReturn
  pendingChoice : Option Nat
  framesSent : BitVec 32
  missingTotal : Nat
  recoveries : Nat
  errorTotal : Nat
  badChoices : Nat
  sent : List LinkMessage
deriving DecidableEq, Repr

/-! ### Command port (Chapter 9) -/

/-- The result codes (section 9.4). -/
inductive ResultCode where
  | ok | nothing | badCommand | badField | noEntry | screenFull | notOpen | staleGeneration | armed | fieldFixed
  | sourceBounds | scaleRange | safetyRule | overlapLimit | occlusion | selectLimit | screenInUse | wrongState
deriving DecidableEq, Repr

/-- A response: a result code and a body (R170), the body encoded as R186 gives. -/
structure Response where
  code : ResultCode
  body : List Byte
deriving DecidableEq, Repr

/-- The transaction state of the port (R167): the complete bytes kept in COMMAND, and in FETCH the bytes clocked after the fetch code. -/
inductive Transaction where
  | idle
  | opening
  | command (bytes : List Byte)
  | fetch (clocked : Nat)
deriving DecidableEq, Repr

/-- The command port: the level of CS, the transaction state (R167), the response buffer (R170) and the bytes driven on MISO after the
fetch code in the last fetch transaction (the model's own record of that output). -/
structure Port where
  csLow : Bool
  transaction : Transaction
  buffer : Option Response
  miso : List Byte
deriving DecidableEq, Repr

/-! ### Notice unit (Chapter 10) -/

/-- The nine kinds of notice (R176). -/
inductive NoticeKind where
  | safetyView | linkState | sourceState | syncState | domainMode | view | applied | passengerChoice | drop
deriving DecidableEq, Repr

/-- A kind with a subject of the sort the kind gives (R176). -/
inductive NoticeKey where
  | safetyView (h : Handle)
  | linkState (s : Screen)
  | sourceState (i : InputId)
  | syncState (d : Domain)
  | domainMode (d : Domain)
  | view (h : Handle)
  | applied (s : Screen)
  | passengerChoice (s : Screen)
  | drop (i : InputId)
deriving DecidableEq, Repr

/-- An entry of the notice set (R176). -/
structure NoticeEntry where
  key : NoticeKey
  count : Nat
deriving DecidableEq, Repr

/-- The masks of the nine kinds, true for masked (R182). -/
structure NoticeMasks where
  safetyView : Bool
  linkState : Bool
  sourceState : Bool
  syncState : Bool
  domainMode : Bool
  view : Bool
  applied : Bool
  passengerChoice : Bool
  drop : Bool
deriving DecidableEq, Repr

/-- The notice unit: the set of pending entries, kept as a list in rising rank (priority, then subject) so that equal sets are equal
data, and the masks. -/
structure NoticeUnit where
  entries : List NoticeEntry
  masks : NoticeMasks
deriving DecidableEq, Repr

/-! ### The whole part -/

/-- The state of the IX4410. `pending` is the queue of waiting commands, first in first out; `choiceCount` is the model's own count of the
order choices taken (log entry 2). -/
structure State where
  timeBase : Time
  resetLow : Bool
  table : Table
  inputs : PerInput InputContext
  domains : PerDomain DomainContext
  composers : PerScreen Composer
  links : PerScreen LinkContext
  port : Port
  notices : NoticeUnit
  pending : List Instr
  choiceCount : Nat
deriving DecidableEq, Repr

/-- Why the part stops. Nothing in the manual stops it: a command is taken, refused by its response or without effect, so this type
has no constructor. -/
inductive Fault where
deriving DecidableEq, Repr

/-- Why a command has no meaning. -/
inductive Refusal where
  /-- Raised by `exec` alone, for a row of the table the model gives no meaning yet. Safe: the model stops. No arm raises it. -/
  | notModelled (mnemonic : String)
deriving DecidableEq, Repr

/-! ### Release of RESETn -/

/-- A FREE record at generation 0 (R26). -/
def Record.reset : Record := ⟨0, none⟩

/-- A FREE slot: no frame, no mark, no holders (R74, R88). -/
def Slot.empty : Slot := ⟨.free, false, 0, 0, none, []⟩

/-- The configuration of an input after release (R67). -/
def SourceConfig.reset : SourceConfig := ⟨1920, 720, 8, 16667, 500, 3, 2⟩

/-- The context of an input after release (R72, R88). -/
def InputContext.reset : InputContext :=
  { config := .reset, monitor := .absent, goodRun := 0, badRun := 0, openFrame := none, previousStart := none, frameNumber := 0,
    timestamp := 0, measuredPeriod := none, senderTag := 0, timer := none, badFrames := 0, dropped := 0,
    slots := ⟨.empty, .empty, .empty, .empty, .empty⟩ }

/-- The context of a domain after release (R89, R105). -/
def DomainContext.reset : DomainContext :=
  { settings := ⟨.free, 16667⟩, pendingSettings := none, mode := .free, heldPeriod := none, nextStart := 16667,
    runningPeriod := 16667, frameNumber := 0, lastStart := 0, sync := .unsynced, agreeingRun := 0, verdict := none, summaries := none }

/-- The context of a composer after release (R106, R125, R50). -/
def Composer.reset : Composer := ⟨⟨0, 0, 0⟩, 1024, none, 0⟩

/-- An interval record with nothing entered (R149). -/
def IntervalRecord.empty : IntervalRecord := ⟨false, false, false, none⟩

/-- The context of a link after release (R144, R166). -/
def LinkContext.reset : LinkContext :=
  { config := ⟨1920, 720, 10, 0⟩, tone := ⟨⟨0, 0, 0⟩, 1024⟩, state := .down, trainedRun := 0, windowCount := 0, missingRun := 0,
    errorRun := 0, resetCount := none, interval := .empty, transmission := none, lastReturn := none, pendingChoice := none,
    framesSent := 0, missingTotal := 0, recoveries := 0, errorTotal := 0, badChoices := 0, sent := [] }

/-- The command port after release (R173); CS stands high (log entry 3). -/
def Port.reset : Port := ⟨false, .idle, none, []⟩

/-- The notice unit after release (R183). -/
def NoticeUnit.reset : NoticeUnit := ⟨[], ⟨false, false, false, false, false, false, false, false, false⟩⟩

/-- The part right after release of RESETn (R184, R185), with no command waiting. -/
def State.reset : State :=
  { timeBase := 0
    resetLow := false
    table := Vector.replicate 64 .reset
    inputs := ⟨.reset, .reset, .reset, .reset⟩
    domains := ⟨.reset, .reset⟩
    composers := ⟨.reset, .reset, .reset, .reset⟩
    links := ⟨.reset, .reset, .reset, .reset⟩
    port := .reset
    notices := .reset
    pending := []
    choiceCount := 0 }

end Sys2Proof.Machine
end

