-- ==== Sys2Proof/Machine/Flags.lean ====
section
/-! DEFINITION. What the state says without being asked by a command: where a thing stands, the derived conditions the rules
name (staged differences, fit to show, the live list, ATTN), and the two kinds of counter. -/

namespace Sys2Proof.Machine

/-! ### Where things stand -/

/-- The timing domain of a screen: S0 and S1 FRONT, S2 and S3 REAR. -/
def screenDomain : Screen → Domain
  | .s0 | .s1 => .front
  | .s2 | .s3 => .rear

/-- The two screens of a domain, lower first. -/
def domainScreens : Domain → Screen × Screen
  | .front => (.s0, .s1)
  | .rear => (.s2, .s3)

/-- Is the screen a rear seat screen, whose returns may carry a passenger's choice? -/
def isRearScreen : Screen → Bool
  | .s2 | .s3 => true
  | _ => false

/-- The record of a handle. -/
def State.record (s : State) (h : Handle) : Record := s.table[h]

/-- What the record of a handle holds, none for a FREE record. -/
def State.placement (s : State) (h : Handle) : Option Placement := (s.record h).body

/-- The context of an input. -/
def State.input (s : State) (i : InputId) : InputContext := s.inputs.get i

/-- The context of a domain. -/
def State.domain (s : State) (d : Domain) : DomainContext := s.domains.get d

/-- The context of a composer. -/
def State.composer (s : State) (sc : Screen) : Composer := s.composers.get sc

/-- The context of a link. -/
def State.link (s : State) (sc : Screen) : LinkContext := s.links.get sc

/-- A slot of the picture store. -/
def State.slot (s : State) (r : SlotRef) : Slot := (s.input r.input).slots.get r.index

/-! ### Placements -/

/-- Is the record LIVE (R3)? -/
def Placement.isLive (p : Placement) : Bool := p.committed.isSome

/-- Has the record staged differences: it is NEW, its retirement is staged, or a field of its staged image differs from the same field
of its committed image (R6)? -/
def Placement.hasStagedDifferences (p : Placement) : Bool := p.retireStaged || p.committed != some p.staged

/-- The staged image as LOOKUP reports it: present while the record is NEW or has a field that differs (R23). -/
def Placement.reportedStaged (p : Placement) : Option Image := if p.committed = some p.staged then none else some p.staged

/-- Does the handle hold a NEW or LIVE record of this screen that meets `q`? -/
def State.onScreen (s : State) (sc : Screen) (q : Placement → Bool) (h : Handle) : Bool :=
  match s.placement h with
  | some p => p.screen = sc && q p
  | none => false

/-- The handles of a screen's NEW and LIVE records that meet `q`, ascending. -/
def State.handlesOn (s : State) (sc : Screen) (q : Placement → Bool) : List Handle := allHandles.filter (s.onScreen sc q)

/-- A screen's placement count: its NEW and LIVE records (R1). -/
def State.placementCount (s : State) (sc : Screen) : Nat := (s.handlesOn sc fun _ => true).length

/-- A record's join position, 0 where it has none (R12). -/
def State.joinKey (s : State) (h : Handle) : Nat :=
  match s.placement h with
  | some p => p.joinPosition.getD 0
  | none => 0

/-- A screen's live list in drawing order: its LIVE records by join position (R12, R43). -/
def State.liveList (s : State) (sc : Screen) : List Handle :=
  (s.handlesOn sc Placement.isLive).insertionSort fun h k => s.joinKey h ≤ s.joinKey k

/-- A screen's LIVE selectable record, the lowest handle of them; R45 keeps it to one (R46). -/
def State.liveSelectable (s : State) (sc : Screen) : Option Handle :=
  (s.handlesOn sc fun p => p.isLive && p.selectable).head?

/-- Does an image name the input as source, alternate source or choice entry (R25)? -/
def Image.names (m : Image) (i : InputId) : Bool :=
  m.source = .input i || m.alternate = some i || (m.choices.getD []).contains i

/-- Does a NEW or LIVE record name the input in either image (R25)? -/
def Placement.names (p : Placement) (i : InputId) : Bool :=
  p.staged.names i || (match p.committed with | some m => m.names i | none => false)

/-! ### Inputs -/

/-- The index of the slot that carries the latest mark, if one does (R80). -/
def InputContext.latest (c : InputContext) : Option SlotIndex := allSlots.find? fun k => (c.slots.get k).latest

/-- Is the input fit to show: its monitor LOCKED and a latest slot (R62)? -/
def InputContext.fit (c : InputContext) : Bool := c.monitor = .locked && c.latest.isSome

/-- The lowest-numbered FREE slot of the input (R75). -/
def InputContext.freeSlot (c : InputContext) : Option SlotIndex := allSlots.find? fun k => (c.slots.get k).state = .free

/-- The width and height an input is configured for. -/
def State.geometry (s : State) (i : InputId) : Nat × Nat := ((s.input i).config.width, (s.input i).config.height)

/-! ### Domains -/

/-- Do the settings name the input as lock input? -/
def DomainSettings.locksTo (t : DomainSettings) (i : InputId) : Bool :=
  match t.mode with
  | .lock j _ => j = i
  | .free => false

/-! ### Notices -/

/-- The kind of a notice (R176). -/
def NoticeKey.kind : NoticeKey → NoticeKind
  | .safetyView _ => .safetyView
  | .linkState _ => .linkState
  | .sourceState _ => .sourceState
  | .syncState _ => .syncState
  | .domainMode _ => .domainMode
  | .view _ => .view
  | .applied _ => .applied
  | .passengerChoice _ => .passengerChoice
  | .drop _ => .drop

/-- The priority of a kind, 1 to 9, 1 the highest; it is the kind's code as well (R176, R186). -/
def NoticeKind.priority : NoticeKind → Nat
  | .safetyView => 1
  | .linkState => 2
  | .sourceState => 3
  | .syncState => 4
  | .domainMode => 5
  | .view => 6
  | .applied => 7
  | .passengerChoice => 8
  | .drop => 9

/-- The number of an input, 0–3 (R186). -/
def inputNumber : InputId → Nat
  | .a => 0
  | .b => 1
  | .c => 2
  | .d => 3

/-- The number of a screen, 0–3 (R186). -/
def screenNumber : Screen → Nat
  | .s0 => 0
  | .s1 => 1
  | .s2 => 2
  | .s3 => 3

/-- The number of a domain, 0–1 (R186). -/
def domainNumber : Domain → Nat
  | .front => 0
  | .rear => 1

/-- The number of a slot, 0–4 (R73). -/
def slotNumber : SlotIndex → Nat
  | .k0 => 0
  | .k1 => 1
  | .k2 => 2
  | .k3 => 3
  | .k4 => 4

/-- The rank of a subject among those of its kind (R176). -/
def NoticeKey.subject : NoticeKey → Nat
  | .safetyView h | .view h => h.val
  | .linkState s | .applied s | .passengerChoice s => screenNumber s
  | .sourceState i | .drop i => inputNumber i
  | .syncState d | .domainMode d => domainNumber d

/-- The order in which TAKE_NOTICE takes entries: by priority, then by subject (R176, R179). -/
def NoticeKey.rank (k : NoticeKey) : Nat := k.kind.priority * 64 + k.subject

/-- The mask of a kind, true for masked (R182). -/
def NoticeMasks.get (m : NoticeMasks) : NoticeKind → Bool
  | .safetyView => m.safetyView
  | .linkState => m.linkState
  | .sourceState => m.sourceState
  | .syncState => m.syncState
  | .domainMode => m.domainMode
  | .view => m.view
  | .applied => m.applied
  | .passengerChoice => m.passengerChoice
  | .drop => m.drop

/-- Set the mask of a kind (R182). -/
def NoticeMasks.set (m : NoticeMasks) (k : NoticeKind) (v : Bool) : NoticeMasks :=
  match k with
  | .safetyView => { m with safetyView := v }
  | .linkState => { m with linkState := v }
  | .sourceState => { m with sourceState := v }
  | .syncState => { m with syncState := v }
  | .domainMode => { m with domainMode := v }
  | .view => { m with view := v }
  | .applied => { m with applied := v }
  | .passengerChoice => { m with passengerChoice := v }
  | .drop => { m with drop := v }

/-- The nine kinds in order of priority. -/
def allKinds : List NoticeKind :=
  [.safetyView, .linkState, .sourceState, .syncState, .domainMode, .view, .applied, .passengerChoice, .drop]

/-- Is ATTN asserted: the notice set holds an entry (R178), and RESETn is not held low (R184)? -/
def State.attn (s : State) : Bool := !s.resetLow && !s.notices.entries.isEmpty

/-! ### Counters -/

/-- The next frame number: 0 and 65535 both become 1 (R54, R90). -/
def nextFrameNumber (n : Nat) : Nat := if n = 0 ∨ 65535 ≤ n then 1 else n + 1

/-- The interval between two values of the time base, modulo 2^32 (R54, R185). -/
def elapsed (earlier later : Time) : Nat := (later - earlier).toNat

/-- A time base value some microseconds later (R185). -/
def later (t : Time) (micros : Nat) : Time := t + BitVec.ofNat 32 micros

end Sys2Proof.Machine
end

