-- ==== Sys2Proof/Machine/Ops.lean ====
section
/-! DEFINITION. The shared operations: the one way each piece of state is written, the notice set (Chapter 10), the slots of the
picture store (Chapter 4), the source monitor (section 3.3) and the entries into link states (R152). -/

namespace Sys2Proof.Machine

/-! ### Writing one thing -/

/-- Replace the record of a handle. -/
def State.setRecord (s : State) (h : Handle) (r : Record) : State := { s with table := s.table.set h r }

/-- Replace what a record holds, its generation kept. -/
def State.setBody (s : State) (h : Handle) (b : Option Placement) : State := s.setRecord h { s.record h with body := b }

/-- Change the fields of a NEW or LIVE record; a FREE record stays as it is. -/
def State.modPlacement (s : State) (h : Handle) (f : Placement → Placement) : State :=
  match s.placement h with
  | some p => s.setBody h (some (f p))
  | none => s

/-- Advance a record's generation by one, from 255 to 0 (R2). -/
def State.advanceGeneration (s : State) (h : Handle) : State :=
  s.setRecord h { s.record h with generation := (s.record h).generation + 1 }

/-- Change the context of an input. -/
def State.modInput (s : State) (i : InputId) (f : InputContext → InputContext) : State :=
  { s with inputs := s.inputs.set i (f (s.input i)) }

/-- Change the context of a domain. -/
def State.modDomain (s : State) (d : Domain) (f : DomainContext → DomainContext) : State :=
  { s with domains := s.domains.set d (f (s.domain d)) }

/-- Change the context of a composer. -/
def State.modComposer (s : State) (sc : Screen) (f : Composer → Composer) : State :=
  { s with composers := s.composers.set sc (f (s.composer sc)) }

/-- Change the context of a link. -/
def State.modLink (s : State) (sc : Screen) (f : LinkContext → LinkContext) : State :=
  { s with links := s.links.set sc (f (s.link sc)) }

/-- Change a slot of the picture store. -/
def State.modSlot (s : State) (r : SlotRef) (f : Slot → Slot) : State :=
  s.modInput r.input fun c => { c with slots := c.slots.set r.index (f (c.slots.get r.index)) }

/-- Put a response in the port's buffer, replacing any response held (R170). -/
def State.respond (s : State) (code : ResultCode) (body : List Byte) : State :=
  { s with port := { s.port with buffer := some ⟨code, body⟩ } }

/-- What a command or event does while RESETn is high; while RESETn is held low none is taken (R184). -/
def whileRunning (s : State) (f : State → State) : Host.Outcome State Fault Refusal :=
  if s.resetLow then .next s else .next (f s)

/-! ### The notice set -/

/-- Record an occurrence in the set: add to the entry's count, held at 255, or create the entry with count 1 (R177). -/
def recordNotice : List NoticeEntry → NoticeKey → List NoticeEntry
  | [], k => [⟨k, 1⟩]
  | e :: es, k =>
    if e.key = k then ⟨k, satSucc 255 e.count⟩ :: es
    else if k.rank < e.key.rank then ⟨k, 1⟩ :: e :: es
    else e :: recordNotice es k

/-- An occurrence reported to the notice unit: not recorded while its kind is masked (R177). -/
def State.raise (s : State) (k : NoticeKey) : State :=
  if s.notices.masks.get k.kind then s
  else { s with notices := { s.notices with entries := recordNotice s.notices.entries k } }

/-- Withdraw the VIEW and SAFETY_VIEW entries of a handle (R181). -/
def State.withdrawViews (s : State) (h : Handle) : State :=
  { s with notices :=
      { s.notices with entries := s.notices.entries.filter fun e => e.key != .view h && e.key != .safetyView h } }

/-! ### Slots of the picture store -/

/-- One more holder (R80). -/
def Slot.acquire (z : Slot) : Slot := { z with holders := z.holders + 1 }

/-- FREE when it has no holders and is not latest, its record then cleared (R74, R81). -/
def Slot.freeIfUnused (z : Slot) : Slot := if z.holders = 0 && !z.latest then .empty else z

/-- One holder fewer, and FREE when that was the last and the slot is not latest (R81). -/
def Slot.release (z : Slot) : Slot := Slot.freeIfUnused { z with holders := z.holders - 1 }

/-- The latest mark taken from the slot that carries it, which becomes FREE without holders (R78, R86). -/
def Slot.unmark (z : Slot) : Slot := if z.latest then Slot.freeIfUnused { z with latest := false } else z

/-- The latest mark taken from whichever slot of the input carries it. -/
def InputContext.unmarkLatest (c : InputContext) : InputContext :=
  { c with slots := ⟨c.slots.k0.unmark, c.slots.k1.unmark, c.slots.k2.unmark, c.slots.k3.unmark, c.slots.k4.unmark⟩ }

/-- A slot finished: READY and latest (R78). -/
def Slot.finish (z : Slot) : Slot := { z with state := .ready, latest := true }

/-- Publication: the open frame's slot becomes READY and latest, and the slot latest until then loses the mark (R78). -/
def InputContext.publish (c : InputContext) (k : SlotIndex) : InputContext :=
  let u := c.unmarkLatest
  { u with slots := u.slots.set k (u.slots.get k).finish }

/-- A slot given to a frame: FILLING, with the frame's number and the configured geometry, and no line stored (R75). -/
def Slot.allocate (z : Slot) (frameNumber width height : Nat) : Slot :=
  { z with state := .filling, frameNumber := frameNumber, geometry := some (width, height), lines := [] }

/-- The store gives a slot to the frame whose number the input has just taken (R75). -/
def InputContext.allocate (c : InputContext) (k : SlotIndex) : InputContext :=
  { c with slots := c.slots.set k ((c.slots.get k).allocate c.frameNumber c.config.width c.config.height) }

/-- A line stored among the lines of a slot, indices strictly rising; a line already stored keeps its first copy (R56, R77). -/
def storeLine : List (Nat × List Colour) → Nat → List Colour → List (Nat × List Colour)
  | [], n, px => [(n, px)]
  | (m, q) :: rest, n, px =>
    if n < m then (n, px) :: (m, q) :: rest
    else if n = m then (m, q) :: rest
    else (m, q) :: storeLine rest n px

/-- A line index joined to the lines received, rising and without repeats (R52). -/
def insertLine : List Nat → Nat → List Nat
  | [], n => [n]
  | m :: rest, n => if n < m then n :: m :: rest else if n = m then m :: rest else m :: insertLine rest n

/-- Read one pixel of a slot, or a void sample (R82). -/
def Slot.read (z : Slot) (column line : Nat) : Option Colour :=
  match z.geometry with
  | none => none
  | some (w, h) =>
    if line < h && column < w then
      match z.lines.find? fun e => e.1 == line with
      | some (_, px) => px[column]?
      | none => none
    else none

/-- Carry out a latch outcome: one change from the slot held before to the slot held after (R80, R81, R126). -/
def State.moveHolder (s : State) (before after : Option SlotRef) : State :=
  if before = after then s
  else
    let s := match after with
      | some r => s.modSlot r Slot.acquire
      | none => s
    match before with
    | some r => s.modSlot r Slot.release
    | none => s

/-- Give a record a latch, or none, and the store its change of holders in the same step (R80, R81). -/
def State.setLatch (s : State) (h : Handle) (after : Option SlotRef) : State :=
  match s.placement h with
  | none => s
  | some p => (s.moveHolder p.latched after).modPlacement h fun p => { p with latched := after }

/-- Release a record's latch and set its age and last source frame number to 0, as a change of committed source does (R40, R47). -/
def State.sourceChanged (s : State) (h : Handle) : State :=
  (s.setLatch h none).modPlacement h fun p => { p with age := 0, lastFrame := 0 }

/-- A record becomes FREE: it releases its latched slot, its view entries are withdrawn, and it loses every field but its
generation (R3, R42, R181). -/
def State.freeRecord (s : State) (h : Handle) : State := ((s.setLatch h none).withdrawViews h).setBody h none

/-! ### The source monitor -/

/-- The lock input's monitor has left LOCKED: a LOCKED domain of it becomes HOLDOVER (R95). -/
def State.enterHoldover (i : InputId) (s : State) (d : Domain) : State :=
  if (s.domain d).settings.locksTo i && (s.domain d).mode = .locked then
    (s.modDomain d fun c => { c with mode := .holdover }).raise (.domainMode d)
  else s

/-- Change a monitor's state: SOURCE_STATE is raised when it changes (R64), and domains locked to the input learn that it has left
LOCKED (R95). -/
def State.setMonitor (s : State) (i : InputId) (m : MonitorState) : State :=
  if (s.input i).monitor = m then s
  else
    let t := (s.modInput i fun c => { c with monitor := m }).raise (.sourceState i)
    if (s.input i).monitor = .locked then allDomains.foldl (State.enterHoldover i) t else t

/-- The two runs of a monitor set. -/
def State.setRuns (s : State) (i : InputId) (good bad : Nat) : State :=
  s.modInput i fun c => { c with goodRun := good, badRun := bad }

/-- A good frame reaches the monitor (R63). -/
def State.goodFrame (s : State) (i : InputId) : State :=
  let c := s.input i
  match c.monitor with
  | .absent => s
  | .acquiring =>
    if c.config.lockCount ≤ c.goodRun + 1 then (s.setRuns i 0 0).setMonitor i .locked else s.setRuns i (c.goodRun + 1) c.badRun
  | .locked => s.setRuns i c.goodRun 0
  | .lost => if c.config.lockCount ≤ 1 then (s.setRuns i 0 0).setMonitor i .locked else (s.setRuns i 1 c.badRun).setMonitor i .acquiring

/-- A bad frame reaches the monitor, and counts in the bad frames total in every state (R63, R66). -/
def State.badFrame (s : State) (i : InputId) : State :=
  let c := s.input i
  let s := s.modInput i fun c => { c with badFrames := satSucc 65535 c.badFrames }
  match c.monitor with
  | .absent => s
  | .acquiring => s.setRuns i 0 c.badRun
  | .locked => if c.config.lossCount ≤ c.badRun + 1 then (s.setRuns i 0 0).setMonitor i .lost else s.setRuns i c.goodRun (c.badRun + 1)
  | .lost => s

/-- A judgement reaches the monitor as one good or one bad frame (R63). -/
def State.judge (s : State) (i : InputId) (good : Bool) : State := if good then s.goodFrame i else s.badFrame i

/-- Is a frame ended by its FRAME_END good (R57): every line, no damage, and a period verdict MET or NOT CHECKED? -/
def frameIsGood (height : Nat) (f : OpenFrame) : Bool := f.lines = List.range height && !f.damage && f.verdict != .missed

/-- End an open frame with this judgement: the monitor, then publication of the slot it has, then the open frame is discarded
(R58, R59, R78, R79). -/
def State.endFrame (s : State) (i : InputId) (f : OpenFrame) (good : Bool) : State :=
  (s.judge i good).modInput i fun c =>
    { (match f.slot with | some k => c.publish k | none => c) with openFrame := none }

/-! ### The RESET_SOURCE of an input -/

/-- What RESET_SOURCE does to the input's own context but for its monitor: the open frame discarded with its FILLING slot, the latest
mark removed, and the timer, numbers and times cleared (R70, R86). -/
def InputContext.restart (c : InputContext) : InputContext :=
  let freed := match c.openFrame with
    | some f => (match f.slot with
      | some k => { c with slots := c.slots.set k .empty }
      | none => c)
    | none => c
  { freed.unmarkLatest with
      openFrame := none, timer := none, previousStart := none, frameNumber := 0, timestamp := 0, senderTag := 0,
      measuredPeriod := none, goodRun := 0, badRun := 0 }

/-- Everything RESET_SOURCE does (R70). -/
def State.restartSource (s : State) (i : InputId) : State := (s.modInput i InputContext.restart).setMonitor i .absent

/-! ### Link states -/

/-- Every run and the window count set to 0 (R152). -/
def LinkContext.clearRuns (l : LinkContext) : LinkContext :=
  { l with trainedRun := 0, windowCount := 0, missingRun := 0, errorRun := 0 }

/-- Entry into TRAINING (R152): runs and window 0, the interval record cleared, no reset count. -/
def LinkContext.toTraining (l : LinkContext) : LinkContext :=
  { l.clearRuns with state := .training, interval := .empty, resetCount := none }

/-- Entry into RECOVERING (R152), which abandons the frame in transmission (R146) and counts a recovery (R155–R157). -/
def LinkContext.toRecovering (l : LinkContext) : LinkContext :=
  { l.clearRuns with state := .recovering, interval := .empty, transmission := none, recoveries := satSucc 65535 l.recoveries }

/-- Entry into UP (R152). -/
def LinkContext.toUp (l : LinkContext) : LinkContext := { l.clearRuns with state := .up }

/-- Entry into HALTED: the runs and the window count keep their values (R152). -/
def LinkContext.toHalted (l : LinkContext) : LinkContext := { l with state := .halted }

/-- Entry into RESETTING with reset count 2, the frame in transmission abandoned and the reset pattern begun (R146, R161). -/
def LinkContext.toResetting (l : LinkContext) : LinkContext :=
  { l with state := .resetting, resetCount := some 2, transmission := none, sent := l.sent ++ [.resetPattern] }

/-- Entry into DOWN: runs and window 0, no reset count, the interval record cleared, sending abandoned (R152, R160). -/
def LinkContext.toDown (l : LinkContext) : LinkContext :=
  { l.clearRuns with state := .down, resetCount := none, interval := .empty, transmission := none }

/-- Change a link, raising LINK_STATE when its state changes by it (R152). -/
def State.changeLink (s : State) (sc : Screen) (f : LinkContext → LinkContext) : State :=
  let t := s.modLink sc f
  if (t.link sc).state = (s.link sc).state then t else t.raise (.linkState sc)

end Sys2Proof.Machine
end

