-- ==== Sys2Proof/Machine/Operands.lean ====
section
/-! DEFINITION. The values inside frames (R186, R188): enumerated bytes and image fields read from a command body, clamping, and the
encoding of every item a response carries. -/

namespace Sys2Proof.Machine

/-! ### Enumerated bytes of command bodies (R186) -/

/-- The handle a byte names, none for 64 or more (R1). -/
def handleOf (b : Byte) : Option Handle := if h : b.toNat < 64 then some ⟨b.toNat, h⟩ else none

/-- The screen a byte names. -/
def screenOf (b : Byte) : Option Screen :=
  match b.toNat with
  | 0 => some .s0
  | 1 => some .s1
  | 2 => some .s2
  | 3 => some .s3
  | _ => none

/-- The input a byte names; SOLID, 4, is no input. -/
def inputOf (b : Byte) : Option InputId :=
  match b.toNat with
  | 0 => some .a
  | 1 => some .b
  | 2 => some .c
  | 3 => some .d
  | _ => none

/-- The source a byte names: an input, or SOLID for 4. -/
def sourceOf (b : Byte) : Option Source := if b = 4 then some .solid else (inputOf b).map .input

/-- The domain a byte names. -/
def domainOf (b : Byte) : Option Domain := twoWay b .front .rear

/-- Yes or no: 1 and 0. -/
def yesNoOf (b : Byte) : Option Bool := twoWay b false true

/-- The class a byte names. -/
def classOf (b : Byte) : Option PlacementClass := twoWay b .ordinary .safety

/-- The blend a byte names. -/
def blendOf (b : Byte) : Option Blend := twoWay b .over .add

/-- The span a byte names. -/
def spanOf (b : Byte) : Option Span := twoWay b .packed .single

/-- The predicate a byte names, in the order of R117. -/
def predicateOf (b : Byte) : Option Predicate :=
  match b.toNat with
  | 0 => some .eq
  | 1 => some .lt
  | 2 => some .le
  | 3 => some .unord
  | 4 => some .neq
  | 5 => some .nlt
  | 6 => some .nle
  | 7 => some .ord
  | _ => none

/-- The policy a byte names. -/
def policyOf (b : Byte) : Option Policy :=
  match b.toNat with
  | 0 => some .hold
  | 1 => some .fill
  | 2 => some .alternate
  | 3 => some .hide
  | _ => none

/-- The notice kind a byte names: 1–9 by priority. -/
def kindOf (b : Byte) : Option NoticeKind := allKinds.find? fun k => k.priority = b.toNat

/-- The mask a byte gives: masked is 0 and unmasked 1, in the order of R182. -/
def maskOf (b : Byte) : Option Bool := twoWay b true false

/-- Every item of a list read, or none when one cannot be. -/
def readAll {α β : Type} (f : α → Option β) : List α → Option (List β)
  | [] => some []
  | a :: as =>
    match f a, readAll f as with
    | some b, some bs => some (b :: bs)
    | _, _ => none

/-- A rectangle of a body. -/
def rectOf (r : RawRect) : Rect := ⟨r.x.toNat, r.y.toNat, r.w.toNat, r.h.toNat⟩

/-- A colour of a body, each channel clamped to 1023 (R9, R10, R163). -/
def colourOf (c : RawColour) : Colour := ⟨min 1023 c.r.toNat, min 1023 c.g.toNat, min 1023 c.b.toNat⟩

/-- A key of a body (R9). -/
def keyOf (k : RawKey) : Option Key :=
  match predicateOf k.predicate, spanOf k.span with
  | some p, some s => some ⟨p, s, colourOf k.colour⟩
  | _, _ => none

/-- An optional item of a body: absent, or present and readable. -/
def optionOf {α β : Type} (f : α → Option β) : Option α → Option (Option β)
  | none => some none
  | some a => (f a).map some

/-- Write one field of a body into an image, clamping as R8, R9 and R10 give; none when its value is outside its list. The
fixed fields are written nowhere (R19 refuses an AMEND that names them before this). -/
def Image.write (m : Image) : RawField → Option Image
  | .source v => (sourceOf v).map fun x => { m with source := x }
  | .sourceRect v => some { m with sourceRect := v.map rectOf }
  | .targetRect v => some { m with target := rectOf v }
  | .layer v => some { m with layer := v.toNat }
  | .opacity v => some { m with opacity := min 256 v.toNat }
  | .blend v => (blendOf v).map fun x => { m with blend := x }
  | .key v => (optionOf keyOf v).map fun x => { m with key := x }
  | .policy v => (policyOf v).map fun x => { m with policy := x }
  | .alternate v => (optionOf inputOf v).map fun x => { m with alternate := x }
  | .fill v => some { m with fill := colourOf v }
  | .holdLimit v => some { m with holdLimit := v.toNat }
  | .choices v => (optionOf (readAll inputOf) v).map fun x => { m with choices := x }
  | .fixedScreen _ | .fixedClass _ | .fixedSelectable _ => some m

/-- Write a list of fields one after the other. -/
def Image.writeAll (m : Image) : List RawField → Option Image
  | [] => some m
  | f :: fs =>
    match m.write f with
    | some m => m.writeAll fs
    | none => none

/-- The image every field of which an OPEN overwrites. -/
def Image.blank : Image :=
  { source := .solid, sourceRect := none, target := ⟨0, 0, 0, 0⟩, layer := 0, opacity := 0, blend := .over, key := none, policy := .hold,
    alternate := none, fill := ⟨0, 0, 0⟩, holdLimit := 0, choices := none }

/-- The image an OPEN carries, none when an enumerated value is outside its list (R14). -/
def imageOf (m : RawImage) : Option Image := Image.blank.writeAll m.fields

/-- Does the field name the screen, the class or selectable (R5, R19)? -/
def RawField.isFixed (f : RawField) : Bool := 13 ≤ f.number

/-! ### Items of responses (R186) -/

/-- A one-byte number. -/
def byteItem (n : Nat) : List Byte := [BitVec.ofNat 8 n]

/-- A two-byte number, little-endian. -/
def halfItem (n : Nat) : List Byte := [BitVec.ofNat 8 n, BitVec.ofNat 8 (n / 256)]

/-- A four-byte number, little-endian. -/
def wordItem (n : Nat) : List Byte := halfItem (n % 65536) ++ halfItem (n / 65536)

/-- Yes is 1, no is 0. -/
def flagItem (b : Bool) : List Byte := byteItem (if b then 1 else 0)

/-- An optional item behind its presence byte. -/
def optionItem {α : Type} (f : α → List Byte) : Option α → List Byte
  | none => byteItem 0
  | some a => byteItem 1 ++ f a

/-- A list preceded by its count. -/
def listItem {α : Type} (f : α → List Byte) (l : List α) : List Byte := byteItem l.length ++ l.flatMap f

/-- A generation. -/
def generationItem (g : BitVec 8) : List Byte := [g]

/-- A handle. -/
def handleItem (h : Handle) : List Byte := byteItem h.val

/-- An input. -/
def inputItem (i : InputId) : List Byte := byteItem (inputNumber i)

/-- A screen. -/
def screenItem (s : Screen) : List Byte := byteItem (screenNumber s)

/-- A domain. -/
def domainItem (d : Domain) : List Byte := byteItem (domainNumber d)

/-- A source: the input, or 4 for SOLID. -/
def sourceItem : Source → List Byte
  | .input i => inputItem i
  | .solid => byteItem 4

/-- A time base value. -/
def timeItem (t : Time) : List Byte := wordItem t.toNat

/-- A colour: three two-byte numbers. -/
def colourItem (c : Colour) : List Byte := halfItem c.r ++ halfItem c.g ++ halfItem c.b

/-- A rectangle: four two-byte numbers. -/
def rectItem (r : Rect) : List Byte := halfItem r.x ++ halfItem r.y ++ halfItem r.w ++ halfItem r.h

/-- The number of a record state. -/
def recordStateItem : RecordState → List Byte
  | .free => byteItem 0
  | .new => byteItem 1
  | .live => byteItem 2

/-- The number of a class. -/
def classItem : PlacementClass → List Byte
  | .ordinary => byteItem 0
  | .safety => byteItem 1

/-- The number of a blend. -/
def blendItem : Blend → List Byte
  | .over => byteItem 0
  | .add => byteItem 1

/-- The number of a policy. -/
def policyItem : Policy → List Byte
  | .hold => byteItem 0
  | .fill => byteItem 1
  | .alternate => byteItem 2
  | .hide => byteItem 3

/-- The number of a predicate, in the order of R117. -/
def predicateItem : Predicate → List Byte
  | .eq => byteItem 0
  | .lt => byteItem 1
  | .le => byteItem 2
  | .unord => byteItem 3
  | .neq => byteItem 4
  | .nlt => byteItem 5
  | .nle => byteItem 6
  | .ord => byteItem 7

/-- The number of a span. -/
def spanItem : Span → List Byte
  | .packed => byteItem 0
  | .single => byteItem 1

/-- A key (R188). -/
def keyItem (k : Key) : List Byte := predicateItem k.predicate ++ spanItem k.span ++ colourItem k.colour

/-- The number of a freeze request. -/
def freezeItem : FreezeRequest → List Byte
  | .freeze => byteItem 0
  | .thaw => byteItem 1

/-- The number of a view. -/
def viewItem : View → List Byte
  | .showing => byteItem 0
  | .holding => byteItem 1
  | .filled => byteItem 2
  | .alternate => byteItem 3
  | .hidden => byteItem 4
  | .frozen => byteItem 5

/-- A slot by input and index (R12). -/
def slotItem (r : SlotRef) : List Byte := inputItem r.input ++ byteItem (slotNumber r.index)

/-- A whole image, its twelve fields in the order of their numbers (R188). -/
def imageItem (m : Image) : List Byte :=
  sourceItem m.source ++ optionItem rectItem m.sourceRect ++ rectItem m.target ++ byteItem m.layer ++ halfItem m.opacity ++
  blendItem m.blend ++ optionItem keyItem m.key ++ policyItem m.policy ++ optionItem inputItem m.alternate ++ colourItem m.fill ++
  byteItem m.holdLimit ++ optionItem (listItem inputItem) m.choices

/-- The number of a monitor state. -/
def monitorItem : MonitorState → List Byte
  | .absent => byteItem 0
  | .acquiring => byteItem 1
  | .locked => byteItem 2
  | .lost => byteItem 3

/-- The number of a period verdict. -/
def verdictItem : PeriodVerdict → List Byte
  | .met => byteItem 0
  | .missed => byteItem 1
  | .notChecked => byteItem 2

/-- The number of a slot state. -/
def slotStateItem : SlotState → List Byte
  | .free => byteItem 0
  | .filling => byteItem 1
  | .ready => byteItem 2

/-- The number of a mode state. -/
def modeItem : ModeState → List Byte
  | .free => byteItem 0
  | .locked => byteItem 1
  | .holdover => byteItem 2

/-- The number of a sync state. -/
def syncItem : SyncState → List Byte
  | .unsynced => byteItem 0
  | .synced => byteItem 1
  | .syncLost => byteItem 2

/-- The number of an interval verdict. -/
def intervalItem : IntervalVerdict → List Byte
  | .agree => byteItem 0
  | .disagree => byteItem 1
  | .neutral => byteItem 2

/-- The number of a link state. -/
def linkStateItem : LinkState → List Byte
  | .down => byteItem 0
  | .training => byteItem 1
  | .up => byteItem 2
  | .recovering => byteItem 3
  | .halted => byteItem 4
  | .resetting => byteItem 5

/-- The number of a rejection's reason, in the order of R169. -/
def reasonItem : RejectReason → List Byte
  | .shortFrame => byteItem 0
  | .unknownCode => byteItem 1
  | .lengthOutOfRange => byteItem 2
  | .bodyShort => byteItem 3
  | .bodyLong => byteItem 4
  | .lengthMismatch => byteItem 5

/-- A status return as its six bytes (R189): 255 marks no choice. -/
def returnItem (r : StatusReturn) : List Byte :=
  halfItem r.presented ++ byteItem (match r.receiver with | .training => 0 | .trained => 1) ++
  byteItem (match r.panel with | .ok => 0 | .fault => 1) ++ byteItem r.errors ++ byteItem (r.choice.getD 255)

/-- The number of a result code: 0–17 in the order of section 9.4 (R186). -/
def ResultCode.number : ResultCode → Nat
  | .ok => 0
  | .nothing => 1
  | .badCommand => 2
  | .badField => 3
  | .noEntry => 4
  | .screenFull => 5
  | .notOpen => 6
  | .staleGeneration => 7
  | .armed => 8
  | .fieldFixed => 9
  | .sourceBounds => 10
  | .scaleRange => 11
  | .safetyRule => 12
  | .overlapLimit => 13
  | .occlusion => 14
  | .selectLimit => 15
  | .screenInUse => 16
  | .wrongState => 17

end Sys2Proof.Machine
end

