-- ==== Sys2Proof/Machine/Image.lean ====
section
/-! DEFINITION. The checks of an image: the four steps of R13 (R14 to R17). -/

namespace Sys2Proof.Machine

/-- Presence and value of the source rectangle: required for an input of a record that is not selectable, absent otherwise (R7), and
of a legal size (R14). -/
def sourceRectOk (selectable : Bool) (m : Image) : Bool :=
  match m.source, selectable, m.sourceRect with
  | .input _, false, some r => 1 ≤ r.w && r.w ≤ 1920 && 1 ≤ r.h && r.h ≤ 1080
  | .input _, false, none => false
  | _, _, r => r.isNone

/-- The target rectangle lies wholly within the screen (R8). -/
def targetOk (config : ScreenConfig) (r : Rect) : Bool :=
  1 ≤ r.w && 1 ≤ r.h && r.x + r.w ≤ config.width && r.y + r.h ≤ config.height

/-- The choice list of an image, or the empty one (R11). -/
def Image.choiceList (m : Image) : List InputId := m.choices.getD []

/-- Presence and value of the alternate source (R10, R14). -/
def alternateOk (m : Image) : Bool :=
  match m.policy, m.alternate with
  | .alternate, some i => m.source != .input i && !m.choiceList.contains i
  | .alternate, none => false
  | _, a => a.isNone

/-- Presence and value of the choice list, and the source an entry of it (R11, R14). -/
def choicesOk (selectable : Bool) (m : Image) : Bool :=
  match selectable, m.choices with
  | true, some l => 1 ≤ l.length && l.length ≤ 8 && l.any (fun i => m.source = .input i)
  | true, none => false
  | false, c => c.isNone

/-- Step 1: ranges, presence and the target rectangle within the screen (R14). -/
def fieldsOk (config : ScreenConfig) (selectable : Bool) (m : Image) : Bool :=
  sourceRectOk selectable m && targetOk config m.target && m.layer ≤ 7 && m.holdLimit ≤ 15 && alternateOk m && choicesOk selectable m

/-- Step 2: the safety and selectable rules (R15). -/
def safetyOk (screen : Screen) (cls : PlacementClass) (selectable : Bool) (m : Image) : Bool :=
  (cls != .safety ||
    (!isRearScreen screen && m.holdLimit != 0 && m.policy != .hold && m.policy != .hide && 256 ≤ m.opacity && m.blend != .add &&
     !selectable)) &&
  (!selectable || isRearScreen screen)

/-- Step 3: the source rectangle within its input's configured frame (R16). -/
def boundsOk (geometry : InputId → Nat × Nat) (m : Image) : Bool :=
  match m.source, m.sourceRect with
  | .input i, some r => r.x + r.w ≤ (geometry i).1 && r.y + r.h ≤ (geometry i).2
  | _, _ => true

/-- The scale range of a source size drawn into a target size (R17). -/
def scaleOk (ws hs tw th : Nat) : Bool := ws ≤ 4 * tw && tw ≤ 8 * ws && hs ≤ 4 * th && th ≤ 8 * hs

/-- The whole frame of an input within the scale range of a target. -/
def wholeFrameOk (geometry : InputId → Nat × Nat) (t : Rect) (i : InputId) : Bool :=
  scaleOk (geometry i).1 (geometry i).2 t.w t.h

/-- Step 4: every scaled rectangle within the scale range (R17). -/
def scalesOk (geometry : InputId → Nat × Nat) (m : Image) : Bool :=
  (match m.sourceRect with | some r => scaleOk r.w r.h m.target.w m.target.h | none => true) &&
  (match m.alternate with | some i => wholeFrameOk geometry m.target i | none => true) &&
  m.choiceList.all (wholeFrameOk geometry m.target)

/-- The four steps in order: the code of the first that fails, none when the image passes (R13). -/
def imageFault (config : ScreenConfig) (geometry : InputId → Nat × Nat) (screen : Screen) (cls : PlacementClass) (selectable : Bool)
    (m : Image) : Option ResultCode :=
  if !fieldsOk config selectable m then some .badField
  else if !safetyOk screen cls selectable m then some .safetyRule
  else if !boundsOk geometry m then some .sourceBounds
  else if !scalesOk geometry m then some .scaleRange
  else none

end Sys2Proof.Machine
end

