-- ==== Sys2Proof/Machine/Placements.lean ====
section
/-! DEFINITION. The commands on placements (Chapter 1): OPEN, AMEND, RETIRE, FREEZE, THAW, LOOKUP, LIST_SCREEN and LIST_SOURCE. -/

namespace Sys2Proof.Machine

/-- A refusal whose response carries no details (R170). -/
def State.refuse (s : State) (code : ResultCode) : State := s.respond code []

/-- The FREE record with the lowest handle (R18). -/
def State.lowestFree (s : State) : Option Handle := allHandles.find? fun h => (s.placement h).isNone

/-- A record just opened: the fixed fields and the staged image, flags and runtime fields at their first values (R4, R12, R18). -/
def Placement.opened (screen : Screen) (cls : PlacementClass) (selectable : Bool) (m : Image) : Placement :=
  { screen := screen, cls := cls, selectable := selectable, committed := none, staged := m, armed := false, retireStaged := false,
    frozen := false, freezeRequest := none, view := none, latched := none, age := 0, lastFrame := 0, liveSince := none,
    joinPosition := none }

/-- The image checks of a record's image against the inputs and screens as they are configured (R13). -/
def State.checkImage (s : State) (screen : Screen) (cls : PlacementClass) (selectable : Bool) (m : Image) : Option ResultCode :=
  imageFault (s.link screen).config s.geometry screen cls selectable m

/-- OPEN of an image all of whose values could be read (R18). -/
def State.openImage (s : State) (screen : Screen) (cls : PlacementClass) (selectable : Bool) (m : Image) : State :=
  match s.checkImage screen cls selectable m with
  | some code => s.refuse code
  | none =>
    match s.lowestFree with
    | none => s.refuse .noEntry
    | some h =>
      if 16 ≤ s.placementCount screen then s.refuse .screenFull
      else
        let s := (s.advanceGeneration h).setBody h (some (.opened screen cls selectable m))
        s.respond .ok (handleItem h ++ generationItem (s.record h).generation)

/-- OPEN (R18): a value outside its list, or an item the layout does not know, fails step 1 of R13. -/
def execOpenPlacement (screen cls selectable : Byte) (image : Option RawImage) (s : State) : Host.Outcome State Fault Refusal :=
  whileRunning s fun s =>
    match screenOf screen, classOf cls, yesNoOf selectable, image.bind imageOf with
    | some sc, some c, some l, some m => s.openImage sc c l m
    | _, _, _, _ => s.refuse .badField

/-- The checks AMEND and RETIRE make on the record, in their order (R19, R21). -/
def recordFault (r : Record) (expected : BitVec 8) (unconditional : Bool) : Option ResultCode :=
  match r.body with
  | none => some .notOpen
  | some p =>
    if p.armed then some .armed
    else if !unconditional && expected != r.generation then some .staleGeneration
    else if p.retireStaged then some .wrongState
    else none

/-- The staged image an AMEND's list would leave, or the code it is refused with: FIELD_FIXED, then the list's own conditions and
the four steps of R13 (R14, R19). -/
def State.amendedImage (s : State) (p : Placement) (entries : List RawField) : Except ResultCode Image :=
  if entries.any RawField.isFixed then .error .fieldFixed
  else if entries.isEmpty || !(entries.map RawField.number).Nodup then .error .badField
  else
    match p.staged.writeAll entries with
    | none => .error .badField
    | some m =>
      match s.checkImage p.screen p.cls p.selectable m with
      | some code => .error code
      | none => .ok m

/-- AMEND of a handle below 64 with a list the port could work out (R19, R20). -/
def State.amendRecord (s : State) (h : Handle) (expected : BitVec 8) (unconditional : Bool) (entries : List RawField) : State :=
  match recordFault (s.record h) expected unconditional, s.placement h with
  | some code, _ => s.refuse code
  | none, none => s.refuse .notOpen
  | none, some p =>
    match s.amendedImage p entries with
    | .error code => s.refuse code
    | .ok m =>
      let s := (s.advanceGeneration h).modPlacement h fun p => { p with staged := m }
      s.respond .ok (generationItem (s.record h).generation)

/-- AMEND (R19): a handle of 64 or more, an unknown flag value or a list that names something the layout does not know is refused
with BAD_FIELD before the other checks. -/
def execAmend (handle expected unconditional : Byte) (entries : Option (List RawField)) (s : State) :
    Host.Outcome State Fault Refusal :=
  whileRunning s fun s =>
    match handleOf handle, yesNoOf unconditional, entries with
    | some h, some u, some es => s.amendRecord h expected u es
    | _, _, _ => s.refuse .badField

/-- RETIRE of a handle below 64 (R21): a NEW record becomes FREE at once, a LIVE one has its retirement staged. -/
def State.retireRecord (s : State) (h : Handle) (expected : BitVec 8) (unconditional : Bool) : State :=
  match recordFault (s.record h) expected unconditional, s.placement h with
  | some code, _ => s.refuse code
  | none, none => s.refuse .notOpen
  | none, some p =>
    let s := if p.isLive then (s.advanceGeneration h).modPlacement h fun p => { p with retireStaged := true } else s.freeRecord h
    s.respond .ok (generationItem (s.record h).generation ++ recordStateItem (s.record h).state)

/-- RETIRE (R21). -/
def execRetire (handle expected unconditional : Byte) (s : State) : Host.Outcome State Fault Refusal :=
  whileRunning s fun s =>
    match handleOf handle, yesNoOf unconditional with
    | some h, some u => s.retireRecord h expected u
    | _, _ => s.refuse .badField

/-- The checks and the effect FREEZE and THAW share: set the record's freeze request (R22). -/
def State.requestFreeze (s : State) (handle : Byte) (request : FreezeRequest) : State :=
  match handleOf handle with
  | none => s.refuse .badField
  | some h =>
    match s.placement h with
    | none => s.refuse .notOpen
    | some p =>
      if p.cls = .safety then s.refuse .safetyRule
      else if !p.isLive then s.refuse .wrongState
      else (s.modPlacement h fun p => { p with freezeRequest := some request }).respond .ok (optionItem freezeItem (some request))

/-- FREEZE (R22). -/
def execFreeze (handle : Byte) (s : State) : Host.Outcome State Fault Refusal := whileRunning s fun s => s.requestFreeze handle .freeze

/-- THAW (R22). -/
def execThaw (handle : Byte) (s : State) : Host.Outcome State Fault Refusal := whileRunning s fun s => s.requestFreeze handle .thaw

/-- The report of a NEW or LIVE record after its state and generation (R23). -/
def placementItem (p : Placement) : List Byte :=
  screenItem p.screen ++ classItem p.cls ++ flagItem p.selectable ++
  flagItem p.armed ++ flagItem p.retireStaged ++ flagItem p.frozen ++ optionItem freezeItem p.freezeRequest ++
  optionItem imageItem p.committed ++ optionItem imageItem p.reportedStaged ++
  optionItem viewItem p.view ++ optionItem slotItem p.latched ++ byteItem p.age ++ halfItem p.lastFrame ++
  optionItem halfItem p.liveSince ++ optionItem byteItem p.joinPosition

/-- The report of a record (R23). -/
def recordItem (r : Record) : List Byte :=
  recordStateItem r.state ++ generationItem r.generation ++ (match r.body with | some p => placementItem p | none => [])

/-- LOOKUP (R23). -/
def execLookup (handle : Byte) (s : State) : Host.Outcome State Fault Refusal :=
  whileRunning s fun s =>
    match handleOf handle with
    | some h => s.respond .ok (recordItem (s.record h))
    | none => s.refuse .badField

/-- The committed layer of a record, 0 where it has none. -/
def State.committedLayer (s : State) (h : Handle) : Nat :=
  match (s.placement h).bind Placement.committed with
  | some m => m.layer
  | none => 0

/-- LIST_SCREEN (R24): the live list from the bottom, each with its committed layer. -/
def execListScreen (screen : Byte) (s : State) : Host.Outcome State Fault Refusal :=
  whileRunning s fun s =>
    match screenOf screen with
    | some sc => s.respond .ok (listItem (fun h => handleItem h ++ byteItem (s.committedLayer h)) (s.liveList sc))
    | none => s.refuse .badField

/-- The handles of the NEW and LIVE records that name the input in either image, ascending (R25). -/
def State.dependents (s : State) (i : InputId) : List Handle :=
  allHandles.filter fun h =>
    match s.placement h with
    | some p => p.names i
    | none => false

/-- An entry of LIST_SOURCE: handle, screen, generation (R25). -/
def State.dependentItem (s : State) (h : Handle) : List Byte :=
  handleItem h ++ (match s.placement h with | some p => screenItem p.screen | none => []) ++ generationItem (s.record h).generation

/-- LIST_SOURCE (R25). -/
def execListSource (input : Byte) (s : State) : Host.Outcome State Fault Refusal :=
  whileRunning s fun s =>
    match inputOf input with
    | some i => s.respond .ok (listItem s.dependentItem (s.dependents i))
    | none => s.refuse .badField

end Sys2Proof.Machine
end

