-- ==== Sys2Proof/Machine/Commit.lean ====
section
/-! DEFINITION. COMMIT and its admission checks over the would-be live sets (sections 2.1 and 2.2, R27 to R34). -/

namespace Sys2Proof.Machine

/-- The image the would-be live set takes for a record: its staged image while NEW or differing, its committed one otherwise (R27). -/
def Placement.chosenImage (p : Placement) : Image :=
  match p.committed with
  | none => p.staged
  | some m => if p.staged = m then m else p.staged

/-- A member of a would-be live set: its handle, its record and the image chosen for it (R27). -/
structure Candidate where
  handle : Handle
  placement : Placement
  image : Image
deriving DecidableEq, Repr

/-- Is the member a stayer: LIVE, its chosen layer equal to its committed layer (R28)? -/
def Candidate.isStayer (c : Candidate) : Bool :=
  match c.placement.committed with
  | some m => c.image.layer = m.layer
  | none => false

/-- Order by layer, the movers of a layer above all its stayers, each group in the order given (R28, R43). -/
def layered {α : Type} (layer : α → Nat) (stayers movers : List α) : List α :=
  (List.range 8).flatMap fun n => (stayers.filter fun x => layer x = n) ++ (movers.filter fun x => layer x = n)

/-- The members among these handles: a record whose retirement is staged is left out (R27). -/
def State.candidates (s : State) (hs : List Handle) : List Candidate :=
  hs.filterMap fun h =>
    match s.placement h with
    | some p => if p.retireStaged then none else some ⟨h, p, p.chosenImage⟩
    | none => none

/-- The would-be live set of a screen in the drawing order it would have after application (R27, R28). -/
def State.wouldBe (s : State) (sc : Screen) : List Candidate :=
  let stayers := (s.candidates (s.liveList sc)).filter Candidate.isStayer
  let movers := (s.candidates (s.handlesOn sc fun _ => true)).filter fun c => !c.isStayer
  layered (fun c => c.image.layer) stayers movers

/-- Does a rectangle cover a line (R31)? -/
def Rect.coversLine (r : Rect) (line : Nat) : Bool := r.y ≤ line && line < r.y + r.h

/-- The coverage of a line: how many rectangles cover it (R31). -/
def lineCoverage (rects : List Rect) (line : Nat) : Nat := (rects.filter fun r => r.coversLine line).length

/-- The lowest line of the screen whose coverage exceeds 6, with that coverage (R31). -/
def overlapFault (height : Nat) (rects : List Rect) : Option (Nat × Nat) :=
  ((List.range height).find? fun l => 6 < lineCoverage rects l).map fun l => (l, lineCoverage rects l)

/-- Do two rectangles share at least one pixel (R32)? -/
def Rect.intersects (p q : Rect) : Bool := p.x < q.x + q.w && q.x < p.x + p.w && p.y < q.y + q.h && q.y < p.y + p.h

/-- The first SAFETY record from the bottom that a record above it intersects, and the lowest-drawn such record (R32). -/
def occlusionFault : List Candidate → Option (Handle × Handle)
  | [] => none
  | c :: above =>
    if c.placement.cls = .safety then
      match above.find? fun x => c.image.target.intersects x.image.target with
      | some x => some (c.handle, x.handle)
      | none => occlusionFault above
    else occlusionFault above

/-- The two lowest handles of a rear screen's selectable members when there is more than one (R33). -/
def selectFault (sc : Screen) (l : List Candidate) : Option (Handle × Handle) :=
  if isRearScreen sc then
    match allHandles.filter (fun h => l.any fun c => c.handle = h && c.placement.selectable) with
    | h :: k :: _ => some (h, k)
    | _ => none
  else none

/-- The three admission checks of one screen in their order; the first that fails gives the code and the details of R30. -/
def State.admissionFault (s : State) (sc : Screen) : Option (ResultCode × List Byte) :=
  let set := s.wouldBe sc
  match overlapFault (s.link sc).config.height (set.map fun c => c.image.target) with
  | some (line, n) => some (.overlapLimit, screenItem sc ++ halfItem line ++ byteItem n)
  | none =>
    match occlusionFault set with
    | some (h, k) => some (.occlusion, screenItem sc ++ handleItem h ++ handleItem k)
    | none =>
      match selectFault sc set with
      | some (h, k) => some (.selectLimit, screenItem sc ++ handleItem h ++ handleItem k)
      | none => none

/-- Arm a record of a named screen that has staged differences; one armed already stays armed (R34). -/
def armRecord (named : List Screen) (p : Placement) : Placement :=
  if named.contains p.screen && p.hasStagedDifferences then { p with armed := true } else p

/-- Arm every NEW or LIVE record of the named screens that has staged differences (R34). -/
def State.arm (s : State) (named : List Screen) : State := allHandles.foldl (fun s h => s.modPlacement h (armRecord named)) s

/-- How many records of a screen are armed (R34). -/
def State.armedCount (s : State) (sc : Screen) : Nat := (s.handlesOn sc Placement.armed).length

/-- COMMIT of a set of screens, named here in ascending order (R29, R34). -/
def State.commitScreens (s : State) (named : List Screen) : State :=
  match named.findSome? s.admissionFault with
  | some (code, details) => s.respond code details
  | none =>
    let s := s.arm named
    s.respond .ok (listItem (fun sc => byteItem (s.armedCount sc)) named)

/-- COMMIT (R29): an empty list, a screen named twice or a value that is no screen is refused before any other check. -/
def execCommit (screens : Option (List Byte)) (s : State) : Host.Outcome State Fault Refusal :=
  whileRunning s fun s =>
    match screens.bind (readAll screenOf) with
    | some l => if l.isEmpty || !l.Nodup then s.refuse .badField else s.commitScreens (allScreens.filter l.contains)
    | none => s.refuse .badField

end Sys2Proof.Machine
end

