-- ==== Sys2Proof/Machine/Sources.lean ====
section
/-! DEFINITION. The commands on an input (section 3.5): SET_SOURCE, RESET_SOURCE and QUERY_SOURCE. -/

namespace Sys2Proof.Machine

/-- The index of the first check of a list that fails. -/
def firstFalse : List Bool → Option Nat
  | [] => none
  | true :: rest => (firstFalse rest).map (· + 1)
  | false :: _ => some 0

/-- The range checks of the seven settings, in the order of the table of R67. -/
def SourceConfig.inRange (c : SourceConfig) : List Bool :=
  [16 ≤ c.width && c.width ≤ 1920, 16 ≤ c.height && c.height ≤ 1080, c.depth = 8 || c.depth = 10,
   8333 ≤ c.period && c.period ≤ 40000, c.tolerance ≤ 2000, 1 ≤ c.lockCount && c.lockCount ≤ 8, 1 ≤ c.lossCount && c.lossCount ≤ 8]

/-- Do these domain settings name the input with a lock delay not below the proposed P less the proposed tolerance (R67)? -/
def DomainSettings.delayTooLong (t : DomainSettings) (i : InputId) (c : SourceConfig) : Bool :=
  match t.mode with
  | .lock j delay => j = i && c.period ≤ delay + c.tolerance
  | .free => false

/-- The first domain whose settings in effect or pending settings hold too long a delay (R67, R99). -/
def State.lockFault (s : State) (i : InputId) (c : SourceConfig) : Option Domain :=
  allDomains.find? fun d =>
    (s.domain d).settings.delayTooLong i c ||
    (match (s.domain d).pendingSettings with | some t => t.delayTooLong i c | none => false)

/-- The geometry of every input, with one input's replaced by a proposed one (R67). -/
def State.geometryWith (s : State) (i : InputId) (c : SourceConfig) : InputId → Nat × Nat :=
  fun j => if j = i then (c.width, c.height) else s.geometry j

/-- Steps 3 and 4 of the image checks in both images of a record (R67). -/
def Placement.fitsGeometry (p : Placement) (geometry : InputId → Nat × Nat) : Bool :=
  boundsOk geometry p.staged && scalesOk geometry p.staged &&
  (match p.committed with | some m => boundsOk geometry m && scalesOk geometry m | none => true)

/-- The lowest handle naming the input whose record does not fit the proposed geometry (R67). -/
def State.geometryFault (s : State) (i : InputId) (c : SourceConfig) : Option Handle :=
  (s.dependents i).find? fun h =>
    match s.placement h with
    | some p => !p.fitsGeometry (s.geometryWith i c)
    | none => false

/-- SET_SOURCE of an input (R67, R68): its three checks in order, and then the configuration stored and everything RESET_SOURCE does. -/
def State.configureSource (s : State) (i : InputId) (c : SourceConfig) : State :=
  match firstFalse c.inRange with
  | some n => s.respond .badField (byteItem n)
  | none =>
    match s.lockFault i c with
    | some d => s.respond .badField (domainItem d)
    | none =>
      match s.geometryFault i c with
      | some h => s.respond .sourceBounds (handleItem h)
      | none => ((s.modInput i fun x => { x with config := c }).restartSource i).respond .ok []

/-- SET_SOURCE (R67). -/
def execSetSource (input : Byte) (width height : Half) (depth : Byte) (period tolerance : Half) (lockCount lossCount : Byte)
    (s : State) : Host.Outcome State Fault Refusal :=
  whileRunning s fun s =>
    match inputOf input with
    | some i =>
      s.configureSource i
        ⟨width.toNat, height.toNat, depth.toNat, period.toNat, tolerance.toNat, lockCount.toNat, lossCount.toNat⟩
    | none => s.refuse .badField

/-- RESET_SOURCE (R70). -/
def execResetSource (input : Byte) (s : State) : Host.Outcome State Fault Refusal :=
  whileRunning s fun s =>
    match inputOf input with
    | some i => (s.restartSource i).respond .ok []
    | none => s.refuse .badField

/-- The configuration of an input, all seven settings (R71). -/
def sourceConfigItem (c : SourceConfig) : List Byte :=
  halfItem c.width ++ halfItem c.height ++ byteItem c.depth ++ halfItem c.period ++ halfItem c.tolerance ++ byteItem c.lockCount ++
  byteItem c.lossCount

/-- An open frame: the number of lines received, its damage and its period verdict (R71). -/
def openFrameItem (f : OpenFrame) : List Byte := halfItem f.lines.length ++ flagItem f.damage ++ verdictItem f.verdict

/-- A slot's state, latest mark, holder count and source frame number (R71). -/
def slotReportItem (z : Slot) : List Byte :=
  slotStateItem z.state ++ flagItem z.latest ++ byteItem z.holders ++ halfItem z.frameNumber

/-- The report of an input (R71). -/
def sourceReport (c : InputContext) (now : Time) : List Byte :=
  sourceConfigItem c.config ++ monitorItem c.monitor ++ byteItem c.goodRun ++ byteItem c.badRun ++
  optionItem openFrameItem c.openFrame ++ halfItem c.frameNumber ++ timeItem c.timestamp ++ optionItem wordItem c.measuredPeriod ++
  halfItem c.senderTag.toNat ++ halfItem c.badFrames ++ halfItem c.dropped ++
  allSlots.flatMap (fun k => slotReportItem (c.slots.get k)) ++ timeItem now

/-- QUERY_SOURCE (R71). -/
def execQuerySource (input : Byte) (s : State) : Host.Outcome State Fault Refusal :=
  whileRunning s fun s =>
    match inputOf input with
    | some i => s.respond .ok (sourceReport (s.input i) s.timeBase)
    | none => s.refuse .badField

end Sys2Proof.Machine
end

