-- ==== Sys2Proof/Machine/Screens.lean ====
section
/-! DEFINITION. The commands on a screen (section 8.5): SET_SCREEN, SET_SCREEN_TONE, ENABLE_LINK, DISABLE_LINK, RESET_LINK and
QUERY_SCREEN. -/

namespace Sys2Proof.Machine

/-- What a command on a screen does when its byte names one; any other value is refused with BAD_FIELD before any other check
(section 8.5). -/
def onScreenNamed (screen : Byte) (f : Screen → State → State) (s : State) : Host.Outcome State Fault Refusal :=
  whileRunning s fun s =>
    match screenOf screen with
    | some sc => f sc s
    | none => s.refuse .badField

/-- The range checks of the four settings, in the order of R162. -/
def ScreenConfig.inRange (c : ScreenConfig) : List Bool :=
  [320 ≤ c.width && c.width ≤ 2560, 240 ≤ c.height && c.height ≤ 1600, c.depth = 8 || c.depth = 10, c.threshold ≤ 255]

/-- SET_SCREEN of a screen (R162). -/
def State.configureScreen (c : ScreenConfig) (sc : Screen) (s : State) : State :=
  match firstFalse c.inRange with
  | some n => s.respond .badField (byteItem n)
  | none =>
    if (s.link sc).state ≠ .down then s.refuse .wrongState
    else if s.placementCount sc ≠ 0 then s.refuse .screenInUse
    else (s.modLink sc fun l => { l with config := c }).respond .ok []

/-- SET_SCREEN (R162). -/
def execSetScreen (screen : Byte) (width height : Half) (depth threshold : Byte) (s : State) : Host.Outcome State Fault Refusal :=
  onScreenNamed screen (State.configureScreen ⟨width.toNat, height.toNat, depth.toNat, threshold.toNat⟩) s

/-- SET_SCREEN_TONE of a screen: the clamped tone stored, and carried in the response (R163). -/
def State.storeTone (t : Tone) (sc : Screen) (s : State) : State :=
  (s.modLink sc fun l => { l with tone := t }).respond .ok (colourItem t.background ++ halfItem t.gain)

/-- SET_SCREEN_TONE (R163). -/
def execSetScreenTone (screen : Byte) (background : RawColour) (gain : Half) (s : State) : Host.Outcome State Fault Refusal :=
  onScreenNamed screen (State.storeTone ⟨colourOf background, min 2047 gain.toNat⟩) s

/-- ENABLE_LINK of a screen (R159). -/
def State.enableLink (sc : Screen) (s : State) : State :=
  if (s.link sc).state = .down then (s.changeLink sc LinkContext.toTraining).respond .ok [] else s.refuse .wrongState

/-- ENABLE_LINK (R159). -/
def execEnableLink (screen : Byte) (s : State) : Host.Outcome State Fault Refusal := onScreenNamed screen State.enableLink s

/-- DISABLE_LINK of a screen: in DOWN it changes nothing (R160). -/
def State.disableLink (sc : Screen) (s : State) : State :=
  if (s.link sc).state = .down then s.respond .ok [] else (s.changeLink sc LinkContext.toDown).respond .ok []

/-- DISABLE_LINK (R160). -/
def execDisableLink (screen : Byte) (s : State) : Host.Outcome State Fault Refusal := onScreenNamed screen State.disableLink s

/-- RESET_LINK of a screen: refused in DOWN, the reset count renewed in RESETTING (R161). -/
def State.resetLink (sc : Screen) (s : State) : State :=
  match (s.link sc).state with
  | .down => s.refuse .wrongState
  | .resetting => (s.modLink sc fun l => { l with resetCount := some 2 }).respond .ok []
  | _ => (s.changeLink sc LinkContext.toResetting).respond .ok []

/-- RESET_LINK (R161). -/
def execResetLink (screen : Byte) (s : State) : Host.Outcome State Fault Refusal := onScreenNamed screen State.resetLink s

/-- The screen configuration and the stored tone (R164). -/
def screenConfigItem (c : ScreenConfig) (t : Tone) : List Byte :=
  halfItem c.width ++ halfItem c.height ++ byteItem c.depth ++ byteItem c.threshold ++ colourItem t.background ++ halfItem t.gain

/-- The interval record (R164). -/
def intervalRecordItem (r : IntervalRecord) : List Byte :=
  flagItem r.returned ++ flagItem r.trainedSeen ++ flagItem r.overThreshold ++ optionItem halfItem r.presented

/-- The report of a screen (R164); the pending choice is an item of the rear screens alone (log entry 10). -/
def screenReport (s : State) (sc : Screen) : List Byte :=
  let l := s.link sc
  screenConfigItem l.config l.tone ++ linkStateItem l.state ++ byteItem l.trainedRun ++ byteItem l.windowCount ++
  byteItem l.missingRun ++ byteItem l.errorRun ++ optionItem byteItem l.resetCount ++ intervalRecordItem l.interval ++
  optionItem returnItem l.lastReturn ++ (if isRearScreen sc then optionItem byteItem l.pendingChoice else []) ++
  wordItem l.framesSent.toNat ++ halfItem l.missingTotal ++ halfItem l.recoveries ++ wordItem l.errorTotal ++ halfItem l.badChoices ++
  halfItem (s.composer sc).lastApplied ++ byteItem (s.placementCount sc)

/-- QUERY_SCREEN (R164). -/
def execQueryScreen (screen : Byte) (s : State) : Host.Outcome State Fault Refusal :=
  onScreenNamed screen (fun sc s => s.respond .ok (screenReport s sc)) s

end Sys2Proof.Machine
end

