-- ==== Sys2Proof/Machine/Domains.lean ====
section
/-! DEFINITION. The commands on a timing domain (section 5.5): SET_DOMAIN and QUERY_DOMAIN. -/

namespace Sys2Proof.Machine

/-- The mode a SET_DOMAIN asks for, none when one of the checks 2 and 4 to 6 of R99 fails: the mode byte, the lock fields present with
LOCK and absent with FREE, the lock input, and the lock delay below the lock input's P less its tolerance. -/
def State.requestedMode (s : State) (mode : Byte) (lock : RawLock) : Option DomainMode :=
  if mode = 0 then
    match lock with
    | .absent => some .free
    | _ => none
  else if mode = 1 then
    match lock with
    | .present input delay =>
      (inputOf input).bind fun i =>
        if delay.toNat + (s.input i).config.tolerance < (s.input i).config.period then some (.lock i delay.toNat) else none
    | _ => none
  else none

/-- SET_DOMAIN (R99): the settings that pass wait as pending settings. -/
def execSetDomain (domain mode : Byte) (period : Half) (lock : RawLock) (s : State) : Host.Outcome State Fault Refusal :=
  whileRunning s fun s =>
    match domainOf domain, s.requestedMode mode lock with
    | some d, some m =>
      if 8333 ≤ period.toNat ∧ period.toNat ≤ 40000 then
        (s.modDomain d fun c => { c with pendingSettings := some ⟨m, period.toNat⟩ }).respond .ok []
      else s.refuse .badField
    | _, _ => s.refuse .badField

/-- A domain's settings: mode, FREE period, and lock input and lock delay behind one presence byte, which is 0 in FREE (R101). R187 gives this
layout for the body of SET_DOMAIN alone; that the response uses it too is the model's choice (log entry 11). -/
def settingsItem (t : DomainSettings) : List Byte :=
  match t.mode with
  | .free => byteItem 0 ++ halfItem t.freePeriod ++ byteItem 0
  | .lock i delay => byteItem 1 ++ halfItem t.freePeriod ++ byteItem 1 ++ inputItem i ++ halfItem delay

/-- A screen's summary (R101). -/
def summaryItem (m : Summary) : List Byte := flagItem m.up ++ optionItem halfItem m.presented

/-- The report of a domain (R101). -/
def domainReport (c : DomainContext) (now : Time) : List Byte :=
  settingsItem c.settings ++ optionItem settingsItem c.pendingSettings ++ modeItem c.mode ++ optionItem halfItem c.heldPeriod ++
  halfItem c.runningPeriod ++ timeItem c.nextStart ++ halfItem c.frameNumber ++ timeItem c.lastStart ++ syncItem c.sync ++
  byteItem c.agreeingRun ++ optionItem intervalItem c.verdict ++
  optionItem (fun p => summaryItem p.1 ++ summaryItem p.2) c.summaries ++ timeItem now

/-- QUERY_DOMAIN (R101). -/
def execQueryDomain (domain : Byte) (s : State) : Host.Outcome State Fault Refusal :=
  whileRunning s fun s =>
    match domainOf domain with
    | some d => s.respond .ok (domainReport (s.domain d) s.timeBase)
    | none => s.refuse .badField

end Sys2Proof.Machine
end

