-- ==== Sys2Proof/Machine/Notices.lean ====
section
/-! DEFINITION. The commands of the notice unit (Chapter 10): TAKE_NOTICE and MASK_NOTICES. -/

namespace Sys2Proof.Machine

/-- The subject of a notice (R176). -/
def subjectItem : NoticeKey → List Byte
  | .safetyView h | .view h => handleItem h
  | .linkState sc | .applied sc | .passengerChoice sc => screenItem sc
  | .sourceState i | .drop i => inputItem i
  | .syncState d | .domainMode d => domainItem d

/-- The committed source of the screen's LIVE selectable record, none without one (R180). -/
def State.selectedSource (s : State) (sc : Screen) : Option Source :=
  ((s.liveSelectable sc).bind fun h => (s.placement h).bind Placement.committed).map Image.source

/-- The current value of a kind for a subject, behind its presence byte, read when the notice is taken (R180, R186). -/
def State.currentValue (s : State) : NoticeKey → List Byte
  | .safetyView h | .view h => optionItem viewItem ((s.placement h).bind Placement.view)
  | .linkState sc => optionItem linkStateItem (some (s.link sc).state)
  | .sourceState i => optionItem monitorItem (some (s.input i).monitor)
  | .syncState d => optionItem syncItem (some (s.domain d).sync)
  | .domainMode d => optionItem modeItem (some (s.domain d).mode)
  | .applied sc => optionItem halfItem (some (s.composer sc).lastApplied)
  | .passengerChoice sc => optionItem sourceItem (s.selectedSource sc)
  | .drop i => optionItem halfItem (some (s.input i).dropped)

/-- TAKE_NOTICE (R179): the entry of highest priority and lowest subject, which stands first, is removed and returned; on an empty
set the response carries kind NONE. -/
def execTakeNotice (s : State) : Host.Outcome State Fault Refusal :=
  whileRunning s fun s =>
    match s.notices.entries with
    | [] => s.respond .ok (byteItem 0 ++ byteItem 0 ++ byteItem 0 ++ byteItem 0 ++ byteItem 0)
    | e :: rest =>
      ({ s with notices := { s.notices with entries := rest } }).respond .ok
        (byteItem e.key.kind.priority ++ optionItem subjectItem (some e.key) ++ byteItem e.count ++ s.currentValue e.key ++
         byteItem rest.length)

/-- A pair of kind and mask, none when either is outside its list (R182). -/
def maskPairOf (p : Byte × Byte) : Option (NoticeKind × Bool) :=
  match kindOf p.1, maskOf p.2 with
  | some k, some m => some (k, m)
  | _, _ => none

/-- One entry of MASK_NOTICES: a kind set to masked has its pending entries removed (R182). -/
def NoticeUnit.applyMask (n : NoticeUnit) (p : NoticeKind × Bool) : NoticeUnit :=
  { entries := if p.2 then n.entries.filter fun e => e.key.kind != p.1 else n.entries
    masks := n.masks.set p.1 p.2 }

/-- The mask of each of the nine kinds: masked 0, unmasked 1 (R182, R186). -/
def masksItem (m : NoticeMasks) : List Byte := allKinds.flatMap fun k => byteItem (if m.get k then 0 else 1)

/-- MASK_NOTICES (R182): refused whole when the list is empty or names a kind twice, or an entry is outside its lists. -/
def execMaskNotices (entries : Option (List (Byte × Byte))) (s : State) : Host.Outcome State Fault Refusal :=
  whileRunning s fun s =>
    match entries.bind (readAll maskPairOf) with
    | some l =>
      if l.isEmpty || 9 < l.length || !(l.map Prod.fst).Nodup then s.refuse .badField
      else
        let s := { s with notices := l.foldl NoticeUnit.applyMask s.notices }
        s.respond .ok (masksItem s.notices.masks)
    | none => s.refuse .badField

end Sys2Proof.Machine
end

