-- ==== Sys2Proof/Machine/Packets.lean ====
section
/-! DEFINITION. The packets of the picture input protocol and the missing-frame timer (section 3.2): FRAME_START, LINE, FRAME_END,
DISCARDED_PACKET and MISSING_FRAME_EXPIRY. -/

namespace Sys2Proof.Machine

/-! ### FRAME_START -/

/-- The period verdict of a FRAME_START: MET when the interval lies within P − tolerance to P + tolerance inclusive (R54, R55). -/
def periodVerdict (c : SourceConfig) : Option Nat → PeriodVerdict
  | none => .notChecked
  | some d => if c.period ≤ d + c.tolerance ∧ d ≤ c.period + c.tolerance then .met else .missed

/-- The first expiry after a FRAME_START, floor(3 × P / 2) later (R60). -/
def firstExpiry (c : SourceConfig) (now : Time) : Time := later now (3 * c.period / 2)

/-- Steps 2 to 7 of R54 for the input's own context, with the slot the store gives: the frame number, the measured period, the times and
tag, the open frame with its verdict, the slot or the drop, and the timer. -/
def InputContext.beginFrame (c : InputContext) (now : Time) (tag : Half) (slot : Option SlotIndex) : InputContext :=
  let d := c.previousStart.map fun t => elapsed t now
  let begun : InputContext :=
    { c with
        frameNumber := nextFrameNumber c.frameNumber
        measuredPeriod := if c.monitor = .locked && d.isSome then d else c.measuredPeriod
        timestamp := now, previousStart := some now, senderTag := tag
        openFrame := some ⟨slot, [], false, periodVerdict c.config d⟩
        timer := some (firstExpiry c.config now) }
  match slot with
  | some k => begun.allocate k
  | none => { begun with dropped := satSucc 65535 c.dropped }

/-- A period clamped to 8,333–40,000 µs (R96). -/
def clampPeriod (d : Nat) : Nat := max 8333 (min 40000 d)

/-- A FRAME_START reported to a domain: acted on when the domain's settings name the input and its monitor is LOCKED (R93, R96, R97). -/
def State.reportStart (i : InputId) (s : State) (d : Domain) : State :=
  match (s.domain d).settings.mode with
  | .free => s
  | .lock j delay =>
    if j = i ∧ (s.input i).monitor = .locked then
      let held := match (s.input i).measuredPeriod with
        | some m => some (clampPeriod m)
        | none => (s.domain d).heldPeriod
      let t := s.modDomain d fun c => { c with mode := .locked, nextStart := later s.timeBase delay, heldPeriod := held }
      if (s.domain d).mode = .locked then t else t.raise (.domainMode d)
    else s

/-- A frame still open is ended early and judged bad (R59). -/
def State.endEarly (s : State) (i : InputId) : State :=
  match (s.input i).openFrame with
  | some f => s.endFrame i f false
  | none => s

/-- The frame begun in the input's context, and the DROP notice when the store gave it no slot (R54 steps 2 to 7, R75, R76). -/
def State.openInput (s : State) (i : InputId) (tag : Half) : State :=
  let slot := (s.input i).freeSlot
  let t := s.modInput i fun c => c.beginFrame s.timeBase tag slot
  if slot.isNone then t.raise (.drop i) else t

/-- An ABSENT monitor becomes ACQUIRING with both runs 0 (R54 step 8). -/
def State.firstFrame (s : State) (i : InputId) : State :=
  if (s.input i).monitor = .absent then (s.setRuns i 0 0).setMonitor i .acquiring else s

/-- FRAME_START (R54), its nine steps in order. -/
def execFrameStart (i : InputId) (tag : Half) (s : State) : Host.Outcome State Fault Refusal :=
  whileRunning s fun s => allDomains.foldl (State.reportStart i) (((s.endEarly i).openInput i tag).firstFrame i)

/-! ### LINE -/

/-- Input expansion of one channel: depth 8 gives c × 4 + floor(c / 64) of its eight bits, depth 10 the value unchanged (R111). -/
def expandChannel (depth : Nat) (c : BitVec 10) : Nat :=
  if depth = 8 then (c.toNat % 256) * 4 + (c.toNat % 256) / 64 else c.toNat

/-- Input expansion of a pixel (R56, R111). -/
def expandPixel (depth : Nat) (p : RawPixel) : Colour :=
  ⟨expandChannel depth p.r, expandChannel depth p.g, expandChannel depth p.b⟩

/-- The pixels of a LINE that passes the tests of R56, none when the line is discarded. -/
def acceptedLine (c : SourceConfig) (f : OpenFrame) (index : Nat) : PixelField → Option (List Colour)
  | .ragged => none
  | .whole px =>
    if index < c.height ∧ px.length = c.width ∧ index ∉ f.lines then some (px.map (expandPixel c.depth)) else none

/-- What a LINE does to the input's context: nothing without an open frame (R53), damage when it is discarded, and otherwise its index joins
lines received and its pixels the open frame's slot (R56, R77). -/
def InputContext.takeLine (c : InputContext) (index : Nat) (field : PixelField) : InputContext :=
  match c.openFrame with
  | none => c
  | some f =>
    match acceptedLine c.config f index field with
    | none => { c with openFrame := some { f with damage := true } }
    | some px =>
      let c := { c with openFrame := some { f with lines := insertLine f.lines index } }
      match f.slot with
      | none => c
      | some k => { c with slots := c.slots.set k { c.slots.get k with lines := storeLine (c.slots.get k).lines index px } }

/-- LINE (R56). -/
def execLine (i : InputId) (index : Half) (field : PixelField) (s : State) : Host.Outcome State Fault Refusal :=
  whileRunning s fun s => s.modInput i fun c => c.takeLine index.toNat field

/-! ### FRAME_END, discarded packets and the missing-frame timer -/

/-- FRAME_END (R58): without an open frame it is discarded (R53). -/
def execFrameEnd (i : InputId) (s : State) : Host.Outcome State Fault Refusal :=
  whileRunning s fun s =>
    match (s.input i).openFrame with
    | some f => s.endFrame i f (frameIsGood (s.input i).config.height f)
    | none => s

/-- DISCARDED_PACKET: as if it had never been sent (R53). -/
def execDiscardedPacket (_i : InputId) (s : State) : Host.Outcome State Fault Refusal := whileRunning s fun s => s

/-- Is the missing-frame timer's expiry due: is it running, and does its next expiry stand at the time base (R60)? -/
def InputContext.expiryDue (c : InputContext) (now : Time) : Bool := c.timer = some now

/-- An expiry counts one bad frame, ending an open frame early, and sets the next expiry P later (R60, R61). -/
def State.expire (s : State) (i : InputId) : State :=
  let t := match (s.input i).openFrame with
    | some f => s.endFrame i f false
    | none => s.badFrame i
  t.modInput i fun c => { c with timer := some (later s.timeBase c.config.period) }

/-- MISSING_FRAME_EXPIRY (R61). An expiry that is not due does not happen, and has no effect (log entry 4). -/
def execMissingFrameExpiry (i : InputId) (s : State) : Host.Outcome State Fault Refusal :=
  whileRunning s fun s => if (s.input i).expiryDue s.timeBase then s.expire i else s

end Sys2Proof.Machine
end

