-- ==== Sys2Proof/Machine/Composition.lean ====
section
/-! DEFINITION. Composition arithmetic (Chapter 6): the seven stages from a latched slot to the value at the screen's depth, the drawing
parameters of a frame, and LINE_HANDOVER. -/

namespace Sys2Proof.Machine

/-! ### Sample position (section 6.3) -/

/-- The fixed-point position of a target column or line, in 1/65536 of a source pixel (R112, R113). -/
def samplePosition (x source target : Nat) : Int := (((2 * x + 1) * source * 65536 / (2 * target) : Nat) : Int) - 32768

/-- The column or line index of a position: the floor of a signed quotient (R112), which `/` gives for a positive divisor. -/
def sampleIndex (u : Int) : Int := u / 65536

/-- The weight of the next column or line, in 256ths (R112). -/
def sampleWeight (u : Int) : Nat := ((u - sampleIndex u * 65536) / 256).toNat

/-- An index clamped into a source of this size (R114). -/
def clampIndex (i : Int) (size : Nat) : Nat := (max 0 (min i ((size : Int) - 1))).toNat

/-! ### Bilinear interpolation (section 6.4) -/

/-- Two channel values mixed by a weight in 256ths, rounding half up (R115, R116). -/
def mix (p q weight : Nat) : Nat := (p * (256 - weight) + q * weight + 128) / 256

/-- Two samples mixed channel by channel; void when either is void, whatever the weight (R115, R116). -/
def mixSamples (weight : Nat) : Option Colour → Option Colour → Option Colour
  | some p, some q => some ⟨mix p.r q.r weight, mix p.g q.g weight, mix p.b q.b weight⟩
  | _, _ => none

/-- The sample of a slot at the offsets x, y within a target of tw by th, through the source rectangle with this origin and size (R112 to
R116). -/
def sampleSlot (z : Slot) (ox oy ws hs : Nat) (target : Rect) (x y : Nat) : Option Colour :=
  let u := samplePosition x ws target.w
  let v := samplePosition y hs target.h
  let at' (i j : Int) := z.read (ox + clampIndex i ws) (oy + clampIndex j hs)
  let i := sampleIndex u
  let j := sampleIndex v
  mixSamples (sampleWeight v) (mixSamples (sampleWeight u) (at' i j) (at' (i + 1) j))
    (mixSamples (sampleWeight u) (at' i (j + 1)) (at' (i + 1) (j + 1)))

/-! ### The key (section 6.5) -/

/-- One channel compared with the key's channel (R117). -/
def Predicate.holds : Predicate → Nat → Nat → Bool
  | .eq, s, k => s = k
  | .lt, s, k => s < k
  | .le, s, k => s ≤ k
  | .unord, _, _ => false
  | .neq, s, k => s ≠ k
  | .nlt, s, k => k ≤ s
  | .nle, s, k => k < s
  | .ord, _, _ => true

/-- The result of a predicate for a void sample (R117). -/
def Predicate.holdsVoid : Predicate → Bool
  | .eq | .lt | .le | .ord => false
  | .unord | .neq | .nlt | .nle => true

/-- Does the key key the sample out at the pixel (R117, R118)? -/
def Key.keysOut (k : Key) : Option Colour → Bool
  | none => k.predicate.holdsVoid
  | some s =>
    match k.span with
    | .packed => k.predicate.holds s.r k.colour.r && k.predicate.holds s.g k.colour.g && k.predicate.holds s.b k.colour.b
    | .single => k.predicate.holds s.g k.colour.g

/-! ### Blending, gain and depth (sections 6.6 to 6.8) -/

/-- One channel of a blend at an opacity (R121, R122). -/
def blendChannel : Blend → Nat → Nat → Nat → Nat
  | .over, opacity, s, d => (s * opacity + d * (256 - opacity) + 128) / 256
  | .add, opacity, s, d => min 1023 (d + (s * opacity + 128) / 256)

/-- A drawn value blended into the destination (R120). -/
def blendColour (b : Blend) (opacity : Nat) (s d : Colour) : Colour :=
  ⟨blendChannel b opacity s.r d.r, blendChannel b opacity s.g d.g, blendChannel b opacity s.b d.b⟩

/-- The screen gain of one channel (R123). -/
def gainChannel (gain c : Nat) : Nat := min 1023 ((c * gain + 512) / 1024)

/-- One channel brought to the screen's depth (R124). -/
def depthChannel (depth c : Nat) : Nat := if depth = 8 then min 255 ((c + 2) / 4) else c

/-- Gain and output depth of a pixel (R123, R124). -/
def outputColour (gain depth : Nat) (d : Colour) : Colour :=
  ⟨depthChannel depth (gainChannel gain d.r), depthChannel depth (gainChannel gain d.g), depthChannel depth (gainChannel gain d.b)⟩

/-! ### Drawing one pixel and one line (R110) -/

/-- Does a rectangle hold a pixel (R110)? -/
def Rect.holds (r : Rect) (column line : Nat) : Bool := r.x ≤ column && column < r.x + r.w && r.y ≤ line && line < r.y + r.h

/-- What a placement samples at a pixel its rectangle holds: none for a void sample (R108, R112 to R116). -/
def DrawParams.sample (s : State) (p : DrawParams) (column line : Nat) : Option Colour :=
  match p.sampling with
  | .slot ref ox oy ws hs => sampleSlot (s.slot ref) ox oy ws hs p.target (column - p.target.x) (line - p.target.y)
  | .solid => some p.fill
  | .nothing => none

/-- One placement's contribution to the destination of a pixel: a pixel outside its rectangle, a HIDDEN view or a keyed-out sample leaves it
as it was; a void sample not keyed out is drawn in the fill colour (R110, R118 to R120). -/
def DrawParams.draw (s : State) (column line : Nat) (d : Colour) (p : DrawParams) : Colour :=
  if p.target.holds column line && p.sampling != .nothing then
    let sample := p.sample s column line
    if (match p.key with | some k => k.keysOut sample | none => false) then d
    else blendColour p.blend p.opacity (sample.getD p.fill) d
  else d

/-- The destination of a pixel when every placement has been blended, over the background in effect (R110, R120). -/
def composedPixel (s : State) (background : Colour) (draws : List DrawParams) (column line : Nat) : Colour :=
  draws.foldl (DrawParams.draw s column line) background

/-- The values of one line of a screen's frame at the screen's depth (R110). -/
def composeLine (s : State) (k : Composer) (m : Composition) : List Colour :=
  (List.range m.width).map fun column => outputColour k.gain m.depth (composedPixel s k.background m.draws column m.nextLine)

/-! ### Drawing parameters (R108) -/

/-- The source rectangle of a committed image, or the whole configured frame of its source on a selectable record (R108). -/
def State.sourceArea (s : State) (m : Image) (i : InputId) : Rect :=
  match m.sourceRect with
  | some r => r
  | none => ⟨0, 0, (s.geometry i).1, (s.geometry i).2⟩

/-- The slot a view reads through an area. -/
def slotSampling (latched : Option SlotRef) (area : Rect) : Sampling :=
  match latched with
  | some r => .slot r area.x area.y area.w area.h
  | none => .solid

/-- What a placement in SHOWING, HOLDING or FROZEN samples (R108). -/
def State.ownSampling (s : State) (p : Placement) (m : Image) : Sampling :=
  match m.source with
  | .solid => .solid
  | .input i => slotSampling p.latched (s.sourceArea m i)

/-- What a placement samples in its view (R108). -/
def State.viewSampling (s : State) (p : Placement) (m : Image) : Sampling :=
  match p.view with
  | some .showing | some .holding | some .frozen => s.ownSampling p m
  | some .alternate =>
    (match m.alternate with
      | some i => slotSampling p.latched ⟨0, 0, (s.geometry i).1, (s.geometry i).2⟩
      | none => .solid)
  | some .filled => .solid
  | some .hidden | none => .nothing

/-- The key a view applies: the committed one, and none in FILLED (R108, R118). -/
def Placement.viewKey (p : Placement) (m : Image) : Option Key := if p.view = some .filled then none else m.key

/-- The drawing parameters of a LIVE placement (R108). -/
def State.drawParams (s : State) (h : Handle) : Option DrawParams :=
  match s.placement h with
  | none => none
  | some p =>
    match p.committed with
    | none => none
    | some m => some ⟨h, m.target, s.viewSampling p m, p.viewKey m, m.opacity, m.blend, m.fill⟩

/-- Begin a new frame in composition, replacing the one before (R107, R109). -/
def State.beginComposition (s : State) (sc : Screen) (frame : Nat) : State :=
  let g := (s.link sc).config
  let draws := (s.liveList sc).filterMap s.drawParams
  s.modComposer sc fun k => { k with composition := some ⟨frame, g.width, g.height, g.depth, draws, 0⟩ }

/-! ### LINE_HANDOVER -/

/-- The composer's side of a hand-over: the next line, or the end of the composition with the last one (R109). -/
def Composition.advance (m : Composition) : Option Composition :=
  if m.nextLine + 1 < m.height then some { m with nextLine := m.nextLine + 1 } else none

/-- The link's side of a hand-over: a LINE unit when it is UP with a frame in transmission, and a FRAME_TAIL after the last one; in any
other state the line is discarded (R145). -/
def LinkContext.takeLine (l : LinkContext) (m : Composition) (pixels : List Colour) : LinkContext :=
  match l.state, l.transmission with
  | .up, some t =>
    if m.nextLine + 1 < m.height then
      { l with sent := l.sent ++ [.line m.nextLine pixels], transmission := some { t with linesSent := t.linesSent + 1 } }
    else { l with sent := l.sent ++ [.line m.nextLine pixels, .frameTail (t.linesSent + 1)], transmission := none }
  | _, _ => l

/-- LINE_HANDOVER (R109): with no frame in composition there is no line to hand over. -/
def execLineHandover (sc : Screen) (s : State) : Host.Outcome State Fault Refusal :=
  whileRunning s fun s =>
    match (s.composer sc).composition with
    | none => s
    | some m =>
      (s.modLink sc fun l => l.takeLine m (composeLine s (s.composer sc) m)).modComposer sc fun k =>
        { k with composition := m.advance }

end Sys2Proof.Machine
end

