-- ==== Sys2Proof/Machine/Application.lean ====
section
/-! DEFINITION. Steps 1 to 4 of a composer's frame start (R39): application of armed records (section 2.4), passenger choices (section 2.5),
freeze requests (R135) and the tone (R163). -/

namespace Sys2Proof.Machine

/-! ### Step 1: application -/

/-- An armed LIVE record takes its staged image whole and is no longer armed (R40). -/
def Placement.takeStaged (p : Placement) : Placement := { p with committed := some p.staged, armed := false }

/-- An armed NEW record becomes LIVE in the frame that begins (R41). -/
def Placement.join (frame : Nat) (p : Placement) : Placement :=
  { p with committed := some p.staged, armed := false, liveSince := some frame, view := none, latched := none, age := 0, lastFrame := 0 }

/-- Application of one armed record: it leaves, joins or takes its staged image (R40, R41, R42). -/
def State.applyRecord (frame : Nat) (s : State) (h : Handle) : State :=
  match s.placement h with
  | none => s
  | some p =>
    if p.retireStaged then s.freeRecord h
    else
      match p.committed with
      | none => s.modPlacement h (Placement.join frame)
      | some m =>
        let t := s.modPlacement h Placement.takeStaged
        if m.source = p.staged.source then t else t.sourceChanged h

/-- Give each handle of a list its place as join position (R43). -/
def State.renumber (s : State) : Nat → List Handle → State
  | _, [] => s
  | n, h :: hs => State.renumber (s.modPlacement h fun p => { p with joinPosition := some n }) (n + 1) hs

/-- The live list after an application: the records that kept their layer, in the order they had, and above them in each layer the
records that joined or changed layer, in ascending handle order (R43). `before` is the state before the application. -/
def State.rebuiltList (before after : State) (sc : Screen) : List Handle :=
  let stays := fun h => after.onScreen sc Placement.isLive h && after.committedLayer h = before.committedLayer h
  let stayers := (before.liveList sc).filter stays
  let movers := (after.handlesOn sc Placement.isLive).filter fun h => !stayers.contains h
  layered after.committedLayer stayers movers

/-- Step 1 of R39: apply the screen's armed records, rebuild its live list, and when any was applied set the last applied frame number and
raise APPLIED (R40 to R44). -/
def State.applyArmed (s : State) (sc : Screen) (frame : Nat) : State :=
  match s.handlesOn sc Placement.armed with
  | [] => s
  | armed =>
    let t := armed.foldl (State.applyRecord frame) s
    let t := t.renumber 0 (s.rebuiltList t sc)
    (t.modComposer sc fun k => { k with lastApplied := frame }).raise (.applied sc)

/-! ### Step 2: passenger choices -/

/-- A choice list's input written into a record: the committed source, and the staged source when the staged choice list holds it (R47). -/
def Placement.choose (i : InputId) (p : Placement) : Placement :=
  { p with
      committed := p.committed.map fun m => { m with source := .input i }
      staged := if p.staged.choiceList.contains i then { p.staged with source := .input i } else p.staged }

/-- The input a choice reaches: the screen's LIVE selectable record and the entry of its committed choice list (R46). -/
def State.reachable (s : State) (sc : Screen) (k : Nat) : Option (Handle × Image × InputId) :=
  match s.liveSelectable sc with
  | none => none
  | some h =>
    match (s.placement h).bind Placement.committed with
    | none => none
    | some m => (m.choiceList[k]?).map fun i => (h, m, i)

/-- A reachable choice applied (R47). -/
def State.applyChoice (s : State) (sc : Screen) (h : Handle) (m : Image) (i : InputId) : State :=
  let t := (s.modPlacement h (Placement.choose i)).advanceGeneration h
  let t := if m.source = .input i then t else t.sourceChanged h
  t.raise (.passengerChoice sc)

/-- Step 2 of R39 on S2 and S3: take the pending choice, apply it when reachable and otherwise count it as bad (R46, R47). -/
def State.takeChoice (s : State) (sc : Screen) : State :=
  if isRearScreen sc then
    match (s.link sc).pendingChoice with
    | none => s
    | some k =>
      let t := s.modLink sc fun l => { l with pendingChoice := none }
      match t.reachable sc k with
      | some (h, m, i) => t.applyChoice sc h m i
      | none => t.modLink sc fun l => { l with badChoices := satSucc 65535 l.badChoices }
  else s

/-! ### Step 3: freeze requests -/

/-- Does the record hold a slot of an input other than its committed source (R135)? -/
def Placement.holdsForeignSlot (p : Placement) : Bool :=
  match p.latched, p.committed with
  | some r, some m => m.source != .input r.input
  | _, _ => false

/-- Step 3 of R39 for one record: take its freeze request (R135). -/
def State.takeFreeze (s : State) (h : Handle) : State :=
  match s.placement h with
  | none => s
  | some p =>
    match p.freezeRequest with
    | none => s
    | some .thaw => s.modPlacement h fun p => { p with freezeRequest := none, frozen := false }
    | some .freeze =>
      let t := s.modPlacement h fun p => { p with freezeRequest := none, frozen := true }
      if !p.frozen && p.holdsForeignSlot then t.setLatch h none else t

/-- Step 3 of R39 for a screen: every LIVE record's request. -/
def State.takeFreezes (s : State) (sc : Screen) : State := (s.liveList sc).foldl State.takeFreeze s

/-! ### Step 4: the tone -/

/-- Step 4 of R39: the stored background and gain become those in effect (R106, R163). -/
def State.takeTone (s : State) (sc : Screen) : State :=
  s.modComposer sc fun k => { k with background := (s.link sc).tone.background, gain := (s.link sc).tone.gain }

end Sys2Proof.Machine
end

