-- ==== Sys2Proof/Machine/Views.lean ====
section
/-! DEFINITION. The view decision (Chapter 7): step 5 of a composer's frame start, and the whole of a composer's frame start (R39, R107). -/

namespace Sys2Proof.Machine

/-- What a decision reads of an input: whether its monitor is LOCKED, and its latest slot with that slot's source frame number (R126). -/
structure SourceAnswer where
  locked : Bool
  latest : Option (SlotRef × Nat)
deriving DecidableEq, Repr

/-- The monitor's state and the store's answer for an input, as they stand (R80, R126). -/
def State.answer (s : State) (i : InputId) : SourceAnswer :=
  let c := s.input i
  ⟨c.monitor = .locked, c.latest.map fun k => (⟨i, k⟩, (c.slots.get k).frameNumber)⟩

/-- The latest slot of a fit source, none when the source is not fit (R62, R128). -/
def SourceAnswer.fitSlot (a : SourceAnswer) : Option (SlotRef × Nat) := if a.locked then a.latest else none

/-- What a decision writes: the view, the slot held after it, the age and the last source frame number (R126). -/
structure Decision where
  view : View
  slot : Option SlotRef
  age : Nat
  lastFrame : Nat
deriving DecidableEq, Repr

/-- The age after a decision (R129). -/
def nextAge (p : Placement) (a : SourceAnswer) : Nat :=
  match a.fitSlot with
  | some (_, n) => if n = p.lastFrame then satSucc 255 p.age else 0
  | none => satSucc 255 p.age

/-- The last source frame number after a decision (R129). -/
def nextLastFrame (p : Placement) (a : SourceAnswer) : Nat :=
  match a.fitSlot with
  | some (_, n) => n
  | none => p.lastFrame

/-- Is the record starved once its age is updated (R130)? -/
def starved (m : Image) (a : SourceAnswer) (age : Nat) : Bool := a.fitSlot.isNone || (m.holdLimit != 0 && m.holdLimit ≤ age)

/-- The candidate slot: a fit source's latest slot, otherwise the slot held (R128). -/
def candidate (p : Placement) (a : SourceAnswer) : Option SlotRef :=
  match a.fitSlot with
  | some (r, _) => some r
  | none => p.latched

/-- The substitute of a starved record under its policy (R131 to R134): the view and the slot held. -/
def substitute (i : InputId) (m : Image) (held : Option SlotRef) (answers : InputId → SourceAnswer) : View × Option SlotRef :=
  match m.policy with
  | .hold =>
    (match held with
      | some r => if r.input = i then (.holding, some r) else (.filled, none)
      | none => (.filled, none))
  | .fill => (.filled, none)
  | .alternate =>
    (match m.alternate.bind fun j => (answers j).fitSlot with
      | some (r, _) => (.alternate, some r)
      | none => (.filled, none))
  | .hide => (.hidden, none)

/-- The input branch: freshness, and the policy when starved (R128 to R134). -/
def inputBranch (p : Placement) (m : Image) (i : InputId) (answers : InputId → SourceAnswer) : Decision :=
  let a := answers i
  let age := nextAge p a
  if starved m a age then
    let r := substitute i m (candidate p a) answers
    ⟨r.1, r.2, age, nextLastFrame p a⟩
  else ⟨.showing, candidate p a, age, nextLastFrame p a⟩

/-- The frozen branch: a record keeps what it holds (R136). -/
def frozenBranch (p : Placement) : Decision := ⟨if p.latched.isSome then .frozen else .filled, p.latched, p.age, p.lastFrame⟩

/-- The view decision of a LIVE record with this committed image (R127). -/
def viewDecision (p : Placement) (m : Image) (answers : InputId → SourceAnswer) : Decision :=
  if p.frozen then frozenBranch p
  else
    match m.source with
    | .solid => ⟨.showing, none, p.age, p.lastFrame⟩
    | .input i => inputBranch p m i answers

/-- The notice a change of view raises: none for the first view of a record that has just joined (R139). -/
def viewNotice (h : Handle) (p : Placement) (v : View) : Option NoticeKey :=
  match p.view with
  | none => none
  | some old => if old = v then none else some (if p.cls = .safety then .safetyView h else .view h)

/-- Report an occurrence, if there is one. -/
def State.raiseSome (s : State) : Option NoticeKey → State
  | some k => s.raise k
  | none => s

/-- Write a decision: the latch outcome at the store, the runtime fields, and the notice (R126, R139). -/
def State.writeDecision (s : State) (h : Handle) (p : Placement) (d : Decision) : State :=
  ((s.setLatch h d.slot).modPlacement h fun p => { p with view := some d.view, age := d.age, lastFrame := d.lastFrame }).raiseSome
    (viewNotice h p d.view)

/-- The view decision of one record (R126). -/
def State.decideView (s : State) (h : Handle) : State :=
  match s.placement h with
  | none => s
  | some p =>
    match p.committed with
    | none => s
    | some m => s.writeDecision h p (viewDecision p m s.answer)

/-- Step 5 of R39: the view decisions of a screen's LIVE records in drawing order (R126). -/
def State.decideViews (s : State) (sc : Screen) : State := (s.liveList sc).foldl State.decideView s

/-- A composer's frame start: the five steps of R39, and the new frame in composition (R107). -/
def State.composerStart (s : State) (sc : Screen) (frame : Nat) : State :=
  (((((s.applyArmed sc frame).takeChoice sc).takeFreezes sc).takeTone sc).decideViews sc).beginComposition sc frame

end Sys2Proof.Machine
end

