-- ==== Sys2Proof/Machine/Links.lean ====
section
/-! DEFINITION. The screen links at a frame start and at a status return (sections 8.2 to 8.4): R145 to R158 and R161. -/

namespace Sys2Proof.Machine

/-! ### At a frame start -/

/-- The summary of the interval just ended: whether the link is UP, and the interval record's presented frame number as it stands, whatever
the state (R90, R102, R151). A RESET_LINK in UP leaves the record as it is, so its number is still handed over. -/
def LinkContext.summary (l : LinkContext) : Summary := ⟨l.state = .up, l.interval.presented⟩

/-- Close a frame still in transmission with a FRAME_TAIL carrying the LINE units sent (R146). -/
def LinkContext.closeFrame (l : LinkContext) : LinkContext :=
  match l.transmission with
  | some t => { l with sent := l.sent ++ [.frameTail t.linesSent], transmission := none }
  | none => l

/-- The judgement of an interval in TRAINING or RECOVERING (R153). -/
def LinkContext.judgeTraining (l : LinkContext) : LinkContext :=
  let run := if l.interval.trainedSeen then l.trainedRun + 1 else 0
  let window := l.windowCount + 1
  if 3 ≤ run then l.toUp
  else
    let l := { l with trainedRun := run, windowCount := window }
    if 32 ≤ window then l.toHalted else l

/-- The judgement of an interval in UP: whether the receiver answered, and its errors (R155, R156). -/
def LinkContext.judgeUp (l : LinkContext) : LinkContext :=
  let missing := if l.interval.returned then 0 else l.missingRun + 1
  let errors := if l.config.threshold = 0 then l.errorRun else if l.interval.overThreshold then l.errorRun + 1 else 0
  let l := { l with missingRun := missing, errorRun := errors,
                    missingTotal := if l.interval.returned then l.missingTotal else satSucc 65535 l.missingTotal }
  if 4 ≤ missing ∨ 3 ≤ errors then l.toRecovering else l

/-- A frame start in RESETTING: the reset count falls by one, and the reset ends when it would fall to 0 (R161). -/
def LinkContext.judgeReset (l : LinkContext) : LinkContext :=
  match l.resetCount with
  | some n => if 2 ≤ n then { l with resetCount := some (n - 1) } else l.toTraining
  | none => l

/-- The judgement of the interval by the link's state (R151 step 3). -/
def LinkContext.judgeInterval (l : LinkContext) : LinkContext :=
  match l.state with
  | .training | .recovering => l.judgeTraining
  | .up => l.judgeUp
  | .resetting => l.judgeReset
  | .down | .halted => l

/-- Begin sending what the state gives for the interval that begins (R145, R147, R151 step 5). -/
def LinkContext.beginSending (frame : Nat) (l : LinkContext) : LinkContext :=
  let c := l.config
  match l.state with
  | .up =>
    { l with sent := l.sent ++ [.frameHead frame c.width c.height c.depth], transmission := some ⟨frame, 0⟩,
             framesSent := l.framesSent + 1 }
  | .training | .recovering => { l with sent := l.sent ++ [.trainingFrame frame c.width c.height c.depth] }
  | _ => l

/-- Steps 1 and 3 to 5 of R151 on a link's own context. -/
def LinkContext.frameStart (frame : Nat) (l : LinkContext) : LinkContext :=
  ({ l.closeFrame.judgeInterval with interval := .empty }).beginSending frame

/-- A link's frame start (R151), LINK_STATE raised for a change of state (R152). -/
def State.linkStart (s : State) (sc : Screen) (frame : Nat) : State := s.changeLink sc (LinkContext.frameStart frame)

/-! ### Status returns -/

/-- Is a return taken in this state (R148)? -/
def LinkState.takesReturns : LinkState → Bool
  | .training | .up | .recovering => true
  | .down | .halted | .resetting => false

/-- A taken return entered in the interval record (R149). -/
def LinkContext.enterReturn (l : LinkContext) (r : StatusReturn) : IntervalRecord :=
  { returned := true
    trainedSeen := l.interval.trainedSeen || r.receiver = .trained
    overThreshold := l.interval.overThreshold || (l.config.threshold != 0 && l.config.threshold < r.errors)
    presented := if l.state = .up then some r.presented else l.interval.presented }

/-- Steps 1 to 4 of R149; only a rear screen's link takes a passenger choice (R148, R150). The return becomes the last return with all its
fields; that this includes the choice field of a return on S0 or S1, which is otherwise ignored, is the model's choice (log entry 13). -/
def LinkContext.takeReturn (rear : Bool) (r : StatusReturn) (l : LinkContext) : LinkContext :=
  { l with
      lastReturn := some r
      errorTotal := satAdd 4294967295 l.errorTotal r.errors
      pendingChoice := if rear && r.choice.isSome then r.choice else l.pendingChoice
      interval := l.enterReturn r }

/-- What a panel FAULT does on arrival: TRAINING and RECOVERING halt (R154), UP becomes RECOVERING (R157). -/
def LinkContext.panelFault (l : LinkContext) : LinkContext :=
  match l.state with
  | .training | .recovering => l.toHalted
  | .up => l.toRecovering
  | _ => l

/-- The five steps of R149 for a taken return. -/
def LinkContext.statusReturn (rear : Bool) (r : StatusReturn) (l : LinkContext) : LinkContext :=
  if r.panel = .fault then (l.takeReturn rear r).panelFault else l.takeReturn rear r

/-- STATUS_RETURN (R148, R149, R189): a damaged return is discarded, and one that arrives in DOWN, HALTED or RESETTING is ignored. -/
def execStatusReturn (sc : Screen) (sound : Bool) (bytes : List Byte) (s : State) : Host.Outcome State Fault Refusal :=
  whileRunning s fun s =>
    match decodeReturn sound bytes with
    | none => s
    | some r =>
      if (s.link sc).state.takesReturns then s.changeLink sc (LinkContext.statusReturn (isRearScreen sc) r) else s

end Sys2Proof.Machine
end

