-- ==== Sys2Proof/Machine/FrameStart.lean ====
section
/-! DEFINITION. The domain frame start (sections 5.2 to 5.6, R90 to R104), and the two rows of the table that name a frame start by what it
does to a link. -/

namespace Sys2Proof.Machine

/-! ### Settings -/

/-- The mode state and the held period that pending settings leave when they take effect (R100). -/
def DomainContext.takeSettings (c : DomainContext) (lockedInput : InputId → Bool) : DomainContext :=
  match c.pendingSettings with
  | none => c
  | some t =>
    match t.mode with
    | .free => { c with settings := t, pendingSettings := none, mode := .free }
    | .lock i _ =>
      { c with settings := t, pendingSettings := none, mode := if lockedInput i then .locked else .holdover
               heldPeriod := if c.settings.locksTo i then c.heldPeriod else none }

/-- Step 1 of R90: pending settings take effect, and DOMAIN_MODE is raised when the mode state changes (R98, R100). -/
def State.takeSettings (s : State) (d : Domain) : State :=
  let t := s.modDomain d fun c => c.takeSettings fun i => (s.input i).monitor = .locked
  if (t.domain d).mode = (s.domain d).mode then t else t.raise (.domainMode d)

/-! ### Presentation sync -/

/-- The verdict on an interval from its two summaries (R102). -/
def intervalVerdict (p q : Summary) : IntervalVerdict :=
  if p.up && q.up then
    match p.presented, q.presented with
    | some m, some n => if m = n then .agree else .disagree
    | _, _ => .neutral
  else .neutral

/-- The sync state and agreeing run after an interval (R103). -/
def nextSync (sync : SyncState) (run : Nat) (p q : Summary) : SyncState × Nat :=
  if p.up && q.up then
    match sync, intervalVerdict p q with
    | .unsynced, .agree => (.synced, run)
    | .unsynced, _ => (.unsynced, run)
    | .synced, .disagree => (.syncLost, 0)
    | .synced, _ => (.synced, run)
    | .syncLost, .agree => if 3 ≤ run + 1 then (.synced, 0) else (.syncLost, run + 1)
    | .syncLost, _ => (.syncLost, 0)
  else
    match sync with
    | .syncLost => (.unsynced, 0)
    | _ => (.unsynced, run)

/-- Step 3 of R90 on a domain's own context (R102, R103). -/
def DomainContext.judgeSync (p q : Summary) (c : DomainContext) : DomainContext :=
  let r := nextSync c.sync c.agreeingRun p q
  { c with verdict := some (intervalVerdict p q), sync := r.1, agreeingRun := r.2, summaries := some (p, q) }

/-- Step 3 of R90: the summaries of the two links judged, and SYNC_STATE raised when the sync state changes (R104). -/
def State.judgeSync (s : State) (d : Domain) : State :=
  let p := (s.link (domainScreens d).1).summary
  let q := (s.link (domainScreens d).2).summary
  let t := s.modDomain d (DomainContext.judgeSync p q)
  if (t.domain d).sync = (s.domain d).sync then t else t.raise (.syncState d)

/-! ### The schedule -/

/-- The running period by the mode state: the FREE period, the lock input's P plus tolerance, or the held period (R91). -/
def State.runningPeriod (s : State) (c : DomainContext) : Nat :=
  match c.mode, c.settings.mode with
  | .free, _ => c.settings.freePeriod
  | .locked, .lock i _ => (s.input i).config.period + (s.input i).config.tolerance
  | .locked, .free => c.settings.freePeriod
  | .holdover, _ => c.heldPeriod.getD c.settings.freePeriod

/-- Step 4 of R90: the last frame start time, the running period and the next frame start (R91). -/
def State.schedule (s : State) (d : Domain) : State :=
  let period := s.runningPeriod (s.domain d)
  s.modDomain d fun c => { c with lastStart := s.timeBase, runningPeriod := period, nextStart := later s.timeBase period }

/-! ### The whole frame start -/

/-- Step 2 of R90: the frame number advances. -/
def State.advanceFrame (s : State) (d : Domain) : State :=
  s.modDomain d fun c => { c with frameNumber := nextFrameNumber c.frameNumber }

/-- Steps 1 to 4 of R90, the domain's own work. -/
def State.domainWork (s : State) (d : Domain) : State := (((s.takeSettings d).advanceFrame d).judgeSync d).schedule d

/-- Step 5 of R90: the frame start handed to the composers and then to the links of the domain's two screens (R39, R151). -/
def State.handFrameStart (s : State) (d : Domain) : State :=
  let n := (s.domain d).frameNumber
  let x := (domainScreens d).1
  let y := (domainScreens d).2
  (((s.composerStart x n).composerStart y n).linkStart x n).linkStart y n

/-- A domain frame start (R90). -/
def State.domainStart (s : State) (d : Domain) : State := (s.domainWork d).handFrameStart d

/-- Is the domain's frame start due: does the time base stand at its next frame start (R90)? -/
def State.frameDue (s : State) (d : Domain) : Bool := (s.domain d).nextStart = s.timeBase

/-- DOMAIN_FRAME_START (R90). A frame start that is not due does not happen, and has no effect (log entry 4). -/
def execDomainFrameStart (d : Domain) (s : State) : Host.Outcome State Fault Refusal :=
  whileRunning s fun s => if s.frameDue d then s.domainStart d else s

/-- Is this link's window about to run out: would the interval now judged bring the window count to 32 without UP (R153)? -/
def LinkContext.windowRunsOut (l : LinkContext) : Bool :=
  (l.state = .training || l.state = .recovering) && 32 ≤ l.windowCount + 1 && !(l.interval.trainedSeen && 3 ≤ l.trainedRun + 1)

/-- TRAINING_WINDOW_EXPIRY (R153): the frame start of the screen's domain at which this link's window runs out. It happens at that frame
start and nowhere else (R152), so the row is the frame start in that case, and has no effect in any other (log entry 5). -/
def execTrainingWindowExpiry (sc : Screen) (s : State) : Host.Outcome State Fault Refusal :=
  whileRunning s fun s =>
    if s.frameDue (screenDomain sc) && (s.link sc).windowRunsOut then s.domainStart (screenDomain sc) else s

/-- Does this link's reset end at the next frame start: is it RESETTING with a reset count that would fall to 0 (R161)? -/
def LinkContext.resetRunsOut (l : LinkContext) : Bool := l.state = .resetting && l.resetCount = some 1

/-- LINK_RESET_END (R161): the frame start of the screen's domain at which this link's reset ends, and no other (R152; log entry 5). -/
def execLinkResetEnd (sc : Screen) (s : State) : Host.Outcome State Fault Refusal :=
  whileRunning s fun s =>
    if s.frameDue (screenDomain sc) && (s.link sc).resetRunsOut then s.domainStart (screenDomain sc) else s

end Sys2Proof.Machine
end

