-- ==== Sys2Proof/Machine/Port.lean ====
section
/-! DEFINITION. The command port (Chapter 9): the two rows that are transactions of the port itself, and, below the grain of the opcode
table, the port's transaction state byte by byte (R167), which turns a whole transaction into the command that joins the queue. -/

namespace Sys2Proof.Machine

/-- The response frame of the buffer: result code, body length and body; NOTHING with length 0 when the buffer is empty (R171). -/
def responseFrame : Option Response → List Byte
  | some r => byteItem r.code.number ++ byteItem r.body.length ++ r.body
  | none => byteItem ResultCode.nothing.number ++ byteItem 0

/-- The byte driven on MISO for each byte clocked after the fetch code: the response frame, and the filler value after it (R171). -/
def drivenByte (buffer : Option Response) (n : Nat) : Byte := (responseFrame buffer)[n]?.getD Config.filler

/-- Is a response fetched whole: was every byte of its frame clocked out (R171)? -/
def fetchedWhole (buffer : Option Response) (clocked : Nat) : Bool := (responseFrame buffer).length ≤ clocked

/-- The effect of a fetch with this many bytes clocked after the fetch code (R171). -/
def Port.fetch (p : Port) (clocked : Nat) : Port :=
  { p with
      miso := (List.range clocked).map (drivenByte p.buffer)
      buffer := if fetchedWhole p.buffer clocked then none else p.buffer }

/-- FETCH_TRANSACTION (R171). -/
def execFetchTransaction (clocked : Nat) (s : State) : Host.Outcome State Fault Refusal :=
  whileRunning s fun s => { s with port := s.port.fetch clocked }

/-- COMMAND_FRAME_REJECTED (R169): handed to no block; its one effect is the response it leaves. -/
def execCommandFrameRejected (reason : RejectReason) (code : Option Byte) (s : State) : Host.Outcome State Fault Refusal :=
  whileRunning s fun s => s.respond .badCommand (reasonItem reason ++ optionItem (fun c => [c]) code)

/-! ### The transaction state, byte by byte -/

/-- CS falls: a transaction opens, unless RESETn is held low (R167, R184). -/
def State.csFall (s : State) : State :=
  { s with port := { s.port with csLow := true, transaction := if s.resetLow then s.port.transaction else .opening } }

/-- A complete byte on MOSI while CS is low (R167). -/
def Transaction.clock (b : Byte) : Transaction → Transaction
  | .idle => .idle
  | .opening => if b = Config.fetchCode then .fetch 0 else .command [b]
  | .command bs => .command (bs ++ [b])
  | .fetch n => .fetch (n + 1)

/-- The byte driven on MISO while the coming byte is clocked, none at high impedance. MISO is driven while CS is low and RESETn is high: in
FETCH with the next byte of the response frame, otherwise with the filler (R167, R171). While CS is high, and while RESETn is held low, it is
at high impedance (R184, section 11.1). -/
def State.misoByte (s : State) : Option Byte :=
  if s.resetLow || !s.port.csLow then none
  else
    match s.port.transaction with
    | .fetch n => some (drivenByte s.port.buffer n)
    | _ => some Config.filler

/-- A complete byte on MOSI (R167). -/
def State.clockByte (s : State) (b : Byte) : State :=
  { s with port := { s.port with transaction := s.port.transaction.clock b } }

/-- The command a transaction spells when CS rises; none for one without a complete byte (R167, R168). -/
def Transaction.spells : Transaction → Option Instr
  | .command bs => decodeTransaction bs
  | .fetch n => some (.fetchTransaction n)
  | .idle | .opening => none

/-- CS rises: the transaction ends (R167), and the command it spells is handed over. R168 takes it at that moment; that it joins the end of
the queue, and is taken by the step that comes to it, is the model's choice (log entry 20). -/
def State.csRise (s : State) : State :=
  { s with
      port := { s.port with csLow := false, transaction := .idle }
      pending := s.pending ++ s.port.transaction.spells.toList }

end Sys2Proof.Machine
end

