-- ==== Sys2Proof/Machine/Reset.lean ====
section
/-! DEFINITION. The reset input (R184): RESETn falling and rising. -/

namespace Sys2Proof.Machine

/-- The open frame ends without judgement and without publication, its slot freed (R184). -/
def InputContext.abandon (c : InputContext) : InputContext :=
  match c.openFrame with
  | none => c
  | some f =>
    match f.slot with
    | some k => { c with openFrame := none, slots := c.slots.set k .empty }
    | none => { c with openFrame := none }

/-- An armed change is never applied (R184). -/
def disarm (p : Placement) : Placement := { p with armed := false }

/-- RESETn falls (R184): every operation in progress ends: open frames, armed changes, frames in composition and in transmission, link
resets and training windows, and the transaction on the port. What RESETn held low keeps from acting is kept by
`whileRunning`. -/
def State.assertReset (s : State) : State :=
  let t := allHandles.foldl (fun s h => s.modPlacement h disarm) s
  { t with
      resetLow := true
      inputs := ⟨s.inputs.a.abandon, s.inputs.b.abandon, s.inputs.c.abandon, s.inputs.d.abandon⟩
      composers := ⟨{ s.composers.s0 with composition := none }, { s.composers.s1 with composition := none },
                    { s.composers.s2 with composition := none }, { s.composers.s3 with composition := none }⟩
      links := ⟨s.links.s0.toDown, s.links.s1.toDown, s.links.s2.toDown, s.links.s3.toDown⟩
      port := { s.port with transaction := .idle } }

/-- RESETN_ASSERT (R184). -/
def execResetnAssert (s : State) : Host.Outcome State Fault Refusal := whileRunning s State.assertReset

/-- RESETN_RELEASE (R184, R185): every block takes its reset values and the time base restarts from 0. The queue of waiting commands and the
level of CS are outside the reset (R167), and the model's count of order choices goes on. -/
def execResetnRelease (s : State) : Host.Outcome State Fault Refusal :=
  .next { State.reset with
    port := { Port.reset with csLow := s.port.csLow }, pending := s.pending, choiceCount := s.choiceCount }

end Sys2Proof.Machine
end

