-- ==== Sys2Proof/Machine/Dispatch.lean ====
section
/-! DEFINITION. One arm for each row of the opcode table: one direct call of its meaning. -/

namespace Sys2Proof.Machine

def exec (i : Instr) (s : State) : Host.Outcome State Fault Refusal :=
  match i with
  | .openPlacement screen cls selectable image => Sys2Proof.Machine.execOpenPlacement screen cls selectable image s
  | .amend handle expected unconditional entries => Sys2Proof.Machine.execAmend handle expected unconditional entries s
  | .retire handle expected unconditional => Sys2Proof.Machine.execRetire handle expected unconditional s
  | .commit screens => Sys2Proof.Machine.execCommit screens s
  | .freeze handle => Sys2Proof.Machine.execFreeze handle s
  | .thaw handle => Sys2Proof.Machine.execThaw handle s
  | .lookup handle => Sys2Proof.Machine.execLookup handle s
  | .listScreen screen => Sys2Proof.Machine.execListScreen screen s
  | .listSource input => Sys2Proof.Machine.execListSource input s
  | .setSource input width height depth period tolerance lockCount lossCount => Sys2Proof.Machine.execSetSource input width height depth period tolerance lockCount lossCount s
  | .resetSource input => Sys2Proof.Machine.execResetSource input s
  | .querySource input => Sys2Proof.Machine.execQuerySource input s
  | .setScreen screen width height depth threshold => Sys2Proof.Machine.execSetScreen screen width height depth threshold s
  | .setScreenTone screen background gain => Sys2Proof.Machine.execSetScreenTone screen background gain s
  | .enableLink screen => Sys2Proof.Machine.execEnableLink screen s
  | .disableLink screen => Sys2Proof.Machine.execDisableLink screen s
  | .resetLink screen => Sys2Proof.Machine.execResetLink screen s
  | .queryScreen screen => Sys2Proof.Machine.execQueryScreen screen s
  | .setDomain domain mode period lock => Sys2Proof.Machine.execSetDomain domain mode period lock s
  | .queryDomain domain => Sys2Proof.Machine.execQueryDomain domain s
  | .takeNotice => Sys2Proof.Machine.execTakeNotice s
  | .maskNotices entries => Sys2Proof.Machine.execMaskNotices entries s
  | .commandFrameRejected reason code => Sys2Proof.Machine.execCommandFrameRejected reason code s
  | .fetchTransaction clocked => Sys2Proof.Machine.execFetchTransaction clocked s
  | .frameStart input tag => Sys2Proof.Machine.execFrameStart input tag s
  | .line input index field => Sys2Proof.Machine.execLine input index field s
  | .frameEnd input => Sys2Proof.Machine.execFrameEnd input s
  | .discardedPacket input => Sys2Proof.Machine.execDiscardedPacket input s
  | .missingFrameExpiry input => Sys2Proof.Machine.execMissingFrameExpiry input s
  | .domainFrameStart domain => Sys2Proof.Machine.execDomainFrameStart domain s
  | .trainingWindowExpiry screen => Sys2Proof.Machine.execTrainingWindowExpiry screen s
  | .linkResetEnd screen => Sys2Proof.Machine.execLinkResetEnd screen s
  | .lineHandover screen => Sys2Proof.Machine.execLineHandover screen s
  | .statusReturn screen sound bytes => Sys2Proof.Machine.execStatusReturn screen sound bytes s
  | .resetnAssert => Sys2Proof.Machine.execResetnAssert s
  | .resetnRelease => Sys2Proof.Machine.execResetnRelease s

end Sys2Proof.Machine
end

