-- ==== Sys2Proof/Machine/Time.lean ====
section
/-! DEFINITION. What happens with the time base alone (R185): the timed events that are due, and the microsecond that passes when none is. -/

namespace Sys2Proof.Machine

/-- The missing-frame expiries and domain frame starts that are due at the time base (R61, R90). -/
def State.dueEvents (s : State) : List Instr :=
  ((allInputs.filter fun i => (s.input i).expiryDue s.timeBase).map Instr.missingFrameExpiry) ++
  ((allDomains.filter s.frameDue).map Instr.domainFrameStart)

/-- Which of the events due is taken next: where the manual lets them be taken in either order, the order is a free value (log entry 2). -/
def State.nextEvent (s : State) : Option Instr :=
  match s.dueEvents with
  | [] => none
  | [e] => some e
  | l => l[Config.dueOrder s.choiceCount % l.length]?

/-- The time base advances by one each microsecond, and wraps (R185). -/
def State.tick (s : State) : State := { s with timeBase := s.timeBase + 1 }

end Sys2Proof.Machine
end

