-- ==== Sys2Proof/Machine/Step.lean ====
section
/-! DEFINITION. One step: the command at the front of the queue, or with no command waiting a timed event that is due, or a microsecond of
the time base. -/

namespace Sys2Proof.Machine

/-- One step of the part. With an empty queue time passes (log entry 1): while RESETn is held low nothing happens; an event due at the time
base is taken; with none due the time base advances by one microsecond. -/
def step (s : State) : Host.Outcome State Fault Refusal :=
  match s.pending with
  | c :: rest => exec c { s with pending := rest }
  | [] =>
    if s.resetLow then .next s
    else
      match s.nextEvent with
      | some e => exec e { s with choiceCount := s.choiceCount + 1 }
      | none => .next s.tick

/-- The state with the command a word spells put at the front of its queue; unchanged where the word spells none. -/
def State.withFetchWord (s : State) (nbits w : Nat) : State :=
  match decodeTableWord nbits w with
  | some c => { s with pending := c :: s.pending }
  | none => s

end Sys2Proof.Machine
end

