-- ==== Sys2Proof/Safety.lean ====
section
/-! DEFINITION. What counts as a sound state of the IX4410: the laws of the device the manual names, each a decidable predicate of one state,
in the form in which a step keeps it. -/

namespace Sys2Proof.Safety

open Sys2Proof.Machine

/-! ### The notice set -/

/-- The notice set holds at most one entry for each pair of kind and subject, in the order TAKE_NOTICE takes them, with counts 1–255, and
no entry of a masked kind (R176, R177, R182). -/
abbrev NoticeLaw (s : State) : Prop :=
  (s.notices.entries.map fun e => e.key.rank).Pairwise (· < ·) ∧
  (∀ e ∈ s.notices.entries, 1 ≤ e.count ∧ e.count ≤ 255 ∧ s.notices.masks.get e.key.kind = false)

/-! ### Images -/

/-- Every image of every NEW or LIVE record passes the four steps of R13 against the inputs and screens as they are now configured (R6, R8,
R69). -/
abbrev ImageLaw (s : State) : Prop :=
  ∀ h : Handle, ∀ p ∈ s.placement h,
    s.checkImage p.screen p.cls p.selectable p.staged = none ∧
    ∀ m ∈ p.committed, s.checkImage p.screen p.cls p.selectable m = none

/-- A NEW record has no retirement staged, is not frozen, has no freeze request, no view, no latch and no join position (R3, R12, R21, R22). -/
abbrev NewLaw (s : State) : Prop :=
  ∀ h : Handle, ∀ p ∈ s.placement h, p.committed = none →
    p.retireStaged = false ∧ p.frozen = false ∧ p.freezeRequest = none ∧ p.view = none ∧ p.latched = none ∧ p.joinPosition = none ∧
    p.age = 0 ∧ p.lastFrame = 0 ∧ p.liveSince = none

/-- A SAFETY record is never frozen and has no freeze request, and its view is SHOWING, FILLED or ALTERNATE (R22, R138). -/
abbrev SafetyViewLaw (s : State) : Prop :=
  ∀ h : Handle, ∀ p ∈ s.placement h, p.cls = .safety →
    p.frozen = false ∧ p.freezeRequest = none ∧ (∀ v ∈ p.view, v = .showing ∨ v = .filled ∨ v = .alternate)

/-! ### The law of the table -/

/-- At most 16 NEW or LIVE records target any one screen (R18). -/
abbrev ScreenLimit (s : State) : Prop := ∀ sc ∈ allScreens, s.placementCount sc ≤ 16

/-- The join positions of a screen's live list are 0, 1, 2, … from the bottom, and its layers ascend (R12, R43). -/
abbrev JoinLaw (s : State) : Prop :=
  ∀ sc ∈ allScreens,
    (s.liveList sc).map (fun h => (s.placement h).bind Placement.joinPosition) = (List.range (s.liveList sc).length).map some ∧
    ((s.liveList sc).map s.committedLayer).Pairwise (· ≤ ·)

/-! ### Line coverage -/

/-- The image a record would be left with if its screen's armed changes were applied now, none when it would not be LIVE (R40 to R42). -/
def appliedImage (p : Placement) : Option Image :=
  if p.armed then (if p.retireStaged then none else some p.staged) else p.committed

/-- The target rectangles of a screen's records under a choice of image. -/
def targets (s : State) (sc : Screen) (image : Placement → Option Image) : List Rect :=
  allHandles.filterMap fun h =>
    match s.placement h with
    | some p => if p.screen = sc then (image p).map Image.target else none
    | none => none

/-- On every screen every line is covered by at most 6 LIVE placements in their committed images (R31), and will be when what is armed has
been applied (R45). -/
abbrev CoverageLaw (s : State) : Prop :=
  ∀ sc ∈ allScreens,
    overlapFault (s.link sc).config.height (targets s sc Placement.committed) = none ∧
    overlapFault (s.link sc).config.height (targets s sc appliedImage) = none

/-! ### Occlusion and selectable count -/

/-- A screen's records under a choice of image, as members of a set the admission checks look at (R27). -/
def members (s : State) (image : Placement → Option Image) (hs : List Handle) : List Candidate :=
  hs.filterMap fun h =>
    match s.placement h with
    | some p => (image p).map fun m => ⟨h, p, m⟩
    | none => none

/-- A screen's live list with its committed images, in drawing order (R43). -/
def drawnSet (s : State) (sc : Screen) : List Candidate := members s Placement.committed (s.liveList sc)

/-- The live list a screen would have, with the images, if its armed changes were applied now (R43, R45). -/
def appliedSet (s : State) (sc : Screen) : List Candidate :=
  layered (fun c => c.image.layer) ((members s appliedImage (s.liveList sc)).filter Candidate.isStayer)
    ((members s appliedImage (s.handlesOn sc fun _ => true)).filter fun c => !c.isStayer)

/-- No LIVE placement drawn above a LIVE SAFETY placement on the same screen intersects its committed target rectangle, and none will when
what is armed has been applied (R32, R45). -/
abbrev OcclusionLaw (s : State) : Prop :=
  ∀ sc ∈ allScreens, occlusionFault (drawnSet s sc) = none ∧ occlusionFault (appliedSet s sc) = none

/-- Each rear screen has at most one LIVE selectable placement, and will when what is armed has been applied (R33, R45). -/
abbrev SelectLaw (s : State) : Prop :=
  ∀ sc ∈ allScreens, selectFault sc (drawnSet s sc) = none ∧ selectFault sc (appliedSet s sc) = none

/-! ### The picture store -/

/-- The number of LIVE placements that have a slot latched (R80). -/
def holderCount (s : State) (r : SlotRef) : Nat :=
  (allHandles.filter fun h =>
    match s.placement h with
    | some p => p.latched = some r
    | none => false).length

/-- For every slot the holder count equals the number of placements whose latched slot it is (R80). -/
abbrev HolderLaw (s : State) : Prop := ∀ i ∈ allInputs, ∀ k ∈ allSlots, (s.slot ⟨i, k⟩).holders = holderCount s ⟨i, k⟩

/-- A slot's state, latest mark and holder count take one of the combinations of R74, and a FREE slot's record is cleared. -/
def slotCombination (z : Slot) : Bool :=
  match z.state with
  | .free => z = .empty
  | .filling => !z.latest && z.holders = 0
  | .ready => z.latest || 1 ≤ z.holders

/-- The slots of one input: the combinations of R74, at most one latest slot, and a FILLING slot exactly where the open frame has one (R52,
R74). -/
def slotsLawful (c : InputContext) : Bool :=
  allSlots.all (fun k => slotCombination (c.slots.get k)) &&
  (allSlots.filter fun k => (c.slots.get k).latest).length ≤ 1 &&
  allSlots.all fun k => ((c.slots.get k).state = .filling) = (c.openFrame.bind OpenFrame.slot = some k)

/-- The combinations of R74 on every input. -/
abbrev SlotLaw (s : State) : Prop := ∀ i ∈ allInputs, slotsLawful (s.input i) = true

/-- A slot's stored lines stand in canonical form: indices strictly rising, each below the stored height, each line of exactly the stored
width, and none without a stored geometry (R73, R82). -/
def linesCanonical (z : Slot) : Bool :=
  match z.geometry with
  | none => z.lines.isEmpty
  | some (w, h) => decide ((z.lines.map Prod.fst).Pairwise (· < ·)) && z.lines.all fun e => e.1 < h && e.2.length = w

/-- The open frame's lines received are rising and below the configured height, and its FILLING slot has the configured geometry and exactly
those lines stored (R52, R75, R77). -/
def openFrameLawful (c : InputContext) : Bool :=
  match c.openFrame with
  | none => true
  | some f =>
    decide (f.lines.Pairwise (· < ·)) && f.lines.all (· < c.config.height) &&
    (match f.slot with
      | none => true
      | some k =>
        (c.slots.get k).geometry = some (c.config.width, c.config.height) && (c.slots.get k).lines.map Prod.fst = f.lines)

/-- The picture store's contents stand in canonical form on every input. -/
abbrev LineLaw (s : State) : Prop :=
  ∀ i ∈ allInputs, openFrameLawful (s.input i) = true ∧ ∀ k ∈ allSlots, linesCanonical ((s.input i).slots.get k) = true

/-- A frozen record's slot is a slot of its committed source (R136). -/
abbrev FrozenSlotLaw (s : State) : Prop :=
  ∀ h : Handle, ∀ p ∈ s.placement h, p.frozen = true → p.holdsForeignSlot = false

/-! ### Views and freshness -/

/-- What a view says of the latched slot, by the table of R134: SHOWING and HOLDING hold a slot of the committed source, or none for SOLID;
ALTERNATE holds a slot of the alternate source; FROZEN holds one and is frozen; FILLED and HIDDEN hold none. -/
def viewLawful (p : Placement) (m : Image) : View → Bool
  | .showing =>
    (match m.source, p.latched with
      | .solid, none => true
      | .input i, some r => r.input = i
      | _, _ => false)
  | .holding => (match p.latched with | some r => m.source = .input r.input && m.policy = .hold | none => false)
  | .filled => p.latched.isNone
  | .alternate => (match p.latched with | some r => m.alternate = some r.input && m.policy = .alternate | none => false)
  | .hidden => p.latched.isNone && m.policy = .hide
  | .frozen => (match p.latched with | some r => m.source = .input r.input && p.frozen | none => false)

/-- Every LIVE record's view and latched slot agree (R108, R134, R136), but for a record whose view is none. -/
abbrev ViewLaw (s : State) : Prop :=
  ∀ h : Handle, ∀ p ∈ s.placement h, ∀ m ∈ p.committed, ∀ v ∈ p.view, viewLawful p m v = true

/-- A LIVE record in view SHOWING whose source is an input and whose hold limit is not 0 has an age below its hold limit (R130, R138). -/
abbrev FreshLaw (s : State) : Prop :=
  ∀ h : Handle, ∀ p ∈ s.placement h, ∀ m ∈ p.committed, p.view = some .showing → m.source ≠ .solid → m.holdLimit ≠ 0 → p.age < m.holdLimit

/-! ### The ranges of the values that are drawn -/

/-- The three channels of a colour within 0–1023. -/
def Colour.within (c : Colour) : Bool := c.r ≤ 1023 && c.g ≤ 1023 && c.b ≤ 1023

/-- The values of an image within the ranges clamping gives them: opacity 0–256, fill and key colour channels 0–1023 (R8, R9, R10). -/
def imageValues (m : Image) : Bool :=
  m.opacity ≤ 256 && Colour.within m.fill && (match m.key with | some k => Colour.within k.colour | none => true)

/-- The values a screen is composed with within their ranges: tones and backgrounds of channels 0–1023 and gains 0–2047, and the drawing
parameters of the frame in composition (R106, R108, R163). -/
def screenValues (k : Composer) (l : LinkContext) : Bool :=
  Colour.within k.background && k.gain ≤ 2047 && Colour.within l.tone.background && l.tone.gain ≤ 2047 &&
  (match k.composition with
    | some m => m.draws.all fun d => d.opacity ≤ 256 && Colour.within d.fill
    | none => true)

/-- Every value that is drawn lies within its range: images, tones, frames in composition, and the pixels of stored lines (R124). -/
abbrev RangeLaw (s : State) : Prop :=
  (∀ h : Handle, ∀ p ∈ s.placement h, imageValues p.staged = true ∧ ∀ m ∈ p.committed, imageValues m = true) ∧
  (∀ sc ∈ allScreens, screenValues (s.composer sc) (s.link sc) = true) ∧
  (∀ i ∈ allInputs, ∀ k ∈ allSlots, ∀ e ∈ (s.slot ⟨i, k⟩).lines, ∀ c ∈ e.2, Colour.within c = true)

/-! ### Inputs, domains and links -/

/-- The parts of an input's context within the ranges of R51 and R67, and the numbers R63 bounds by N and M. -/
def inputRanges (c : InputContext) : Bool :=
  c.config.inRange.all id && c.goodRun < c.config.lockCount && c.badRun < c.config.lossCount && c.frameNumber ≤ 65535 &&
  c.badFrames ≤ 65535 && c.dropped ≤ 65535 &&
  (c.monitor != .absent || (c.timer.isNone && c.openFrame.isNone && c.frameNumber = 0 && c.previousStart.isNone))

/-- The ranges of R51 on every input; an ABSENT monitor has its timer stopped and no frame open (R60, R62). -/
abbrev InputLaw (s : State) : Prop := ∀ i ∈ allInputs, inputRanges (s.input i) = true

/-- A domain's mode state is FREE exactly in mode FREE (R89), and LOCKED only while its lock input's monitor is LOCKED (R93, R95). -/
def modeLawful (s : State) (c : DomainContext) : Bool :=
  match c.settings.mode with
  | .free => c.mode = .free
  | .lock i _ => c.mode != .free && (c.mode != .locked || (s.input i).monitor = .locked)

/-- The mode states of both domains. -/
abbrev ModeLaw (s : State) : Prop := ∀ d ∈ allDomains, modeLawful s (s.domain d) = true

/-- The lock delay of these settings is below the lock input's period less its tolerance (R67, R99). -/
def delayLawful (s : State) (t : DomainSettings) : Bool :=
  match t.mode with
  | .free => true
  | .lock i delay => delay + (s.input i).config.tolerance < (s.input i).config.period

/-- Every lock delay, in effect or pending, is below its input's period less its tolerance (R67, R69, R99). -/
abbrev DelayLaw (s : State) : Prop :=
  ∀ d ∈ allDomains, delayLawful s (s.domain d).settings = true ∧ ∀ t ∈ (s.domain d).pendingSettings, delayLawful s t = true

/-- The agreeing run counts only in SYNC_LOST, and then 0–2 (R103). -/
abbrev SyncLaw (s : State) : Prop :=
  ∀ d ∈ allDomains, (s.domain d).agreeingRun ≤ 2 ∧ ((s.domain d).sync ≠ .syncLost → (s.domain d).agreeingRun = 0)

/-- The parts of a link's context within the ranges of R144: a reset count of 1 or 2 exactly in RESETTING, a frame in transmission only in UP,
and a window count of 32 only where it has halted the link (R152, R158). -/
def linkRanges (l : LinkContext) : Bool :=
  l.trainedRun ≤ 2 && l.windowCount ≤ 32 && l.missingRun ≤ 3 && l.errorRun ≤ 2 &&
  (match l.resetCount with | some n => l.state = .resetting && 1 ≤ n && n ≤ 2 | none => l.state != .resetting) &&
  (l.transmission.isNone || l.state = .up) && (l.windowCount ≤ 31 || l.state = .halted || l.state = .resetting) &&
  l.missingTotal ≤ 65535 && l.recoveries ≤ 65535 && l.errorTotal ≤ 4294967295 && l.badChoices ≤ 65535

/-- The ranges of R144 on every link. -/
abbrev LinkLaw (s : State) : Prop := ∀ sc ∈ allScreens, linkRanges (s.link sc) = true

/-! ### What the head unit and its notices see -/

/-- The 22 commands of the command port; the other rows of the table are transactions of the port itself, packets, events, returns and the
reset pin (section 9.5). -/
def isCommand : Instr → Bool
  | .openPlacement .. | .amend .. | .retire .. | .commit .. | .freeze .. | .thaw .. | .lookup .. | .listScreen .. | .listSource ..
  | .setSource .. | .resetSource .. | .querySource .. | .setScreen .. | .setScreenTone .. | .enableLink .. | .disableLink .. | .resetLink ..
  | .queryScreen .. | .setDomain .. | .queryDomain .. | .takeNotice | .maskNotices .. => true
  | _ => false

/-- The rows that may be a domain frame start: the frame start itself, and the two rows that name one by what it does to a link. -/
def isFrameStart : Instr → Bool
  | .domainFrameStart .. | .trainingWindowExpiry .. | .linkResetEnd .. => true
  | _ => false

/-- The count of the entry a kind and subject have in the notice set, 0 where they have none (R176). -/
def noticeCount (s : State) (k : NoticeKey) : Nat :=
  match s.notices.entries.find? fun e => e.key = k with
  | some e => e.count
  | none => 0

/-- The count an entry has after an occurrence that is or is not reported under its key: one more, held at 255, unless its kind is masked
(R177, R182). -/
def countAfter (s : State) (k : NoticeKey) (occurred : Prop) [Decidable occurred] : Nat :=
  if s.notices.masks.get k.kind = false ∧ occurred then min 255 (noticeCount s k + 1) else noticeCount s k

/-! ### A safe state -/

/-- The laws of the placement table and its live lists. -/
abbrev TableSafe (s : State) : Prop :=
  ImageLaw s ∧ NewLaw s ∧ SafetyViewLaw s ∧ ScreenLimit s ∧ JoinLaw s ∧ CoverageLaw s ∧ OcclusionLaw s ∧ SelectLaw s

/-- The laws of the picture store and of what is drawn from it. -/
abbrev StoreSafe (s : State) : Prop :=
  HolderLaw s ∧ SlotLaw s ∧ LineLaw s ∧ FrozenSlotLaw s ∧ ViewLaw s ∧ FreshLaw s ∧ RangeLaw s

/-- The laws of the inputs, the domains, the links and the notice unit. -/
abbrev BlocksSafe (s : State) : Prop := InputLaw s ∧ ModeLaw s ∧ DelayLaw s ∧ SyncLaw s ∧ LinkLaw s ∧ NoticeLaw s

/-- Every law at once: what a safe run keeps from release of RESETn on. -/
def Safe (s : State) : Prop := TableSafe s ∧ StoreSafe s ∧ BlocksSafe s

end Sys2Proof.Safety
end

