-- ==== Sys2Proof/Certificates/Slice0/Obligations.lean ====
section
/-! DEFINITION. The statements for the provers. Each cites the rule of spec/ it formalises. A statement that rests on a choice of the model
names its log entry. Unless its docstring says otherwise a statement is about RESETn high (`resetLow = false`). -/

section Statements

open Sys2Proof Sys2Proof.Machine Sys2Proof.Safety

/-! ### The queue, the time base and the reset input -/

/-- The model's queue (log entry 1): a step with a command at the front of the queue is that command's effect, with the rest waiting. -/
def Obligations.StepRunsTheFrontCommand : Prop :=
  ∀ (c : Instr) (s : State), step { s with pending := c :: s.pending } = exec c s

/-- With no command waiting (log entries 1 and 2): nothing happens while RESETn is held low; with no timed event due a microsecond passes
(R185); and otherwise one of the expiries and domain frame starts that are due is taken (R61, R90). -/
def Obligations.IdleStepLetsTimePass : Prop :=
  ∀ s : State, s.pending = [] →
    (s.resetLow = true → step s = .next s) ∧
    (s.resetLow = false → (∀ i, (s.input i).timer ≠ some s.timeBase) → (∀ d, (s.domain d).nextStart ≠ s.timeBase) →
      step s = .next { s with timeBase := s.timeBase + 1 }) ∧
    (s.resetLow = false → ((∃ i, (s.input i).timer = some s.timeBase) ∨ ∃ d, (s.domain d).nextStart = s.timeBase) →
      ∃ e, step s = exec e { s with choiceCount := s.choiceCount + 1 } ∧
        ((∃ i, e = .missingFrameExpiry i ∧ (s.input i).timer = some s.timeBase) ∨
          ∃ d, e = .domainFrameStart d ∧ (s.domain d).nextStart = s.timeBase))

/-- Every command is taken: none stops the part. None touches the queue, none but the release of RESETn sets the time base (R185), and
while RESETn is held low none but its release has any effect (R184). -/
def Obligations.CommandsMoveNoTimeAndNoneStops : Prop :=
  ∀ (c : Instr) (s : State), ∃ t, exec c s = .next t ∧ t.pending = s.pending ∧ t.port.csLow = s.port.csLow ∧
    (c ≠ .resetnRelease → t.timeBase = s.timeBase ∧ (s.resetLow = true → t = s))

/-- RESETN_ASSERT and RESETN_RELEASE (R184, R185). The fall ends every operation in progress without completing it: no frame is open,
none was judged or published for it, no change is armed or was applied, no frame is in composition or in transmission, every link has
ended its training or reset, the transaction is idle, and ATTN is released. The rise gives every block its reset values and restarts the
time base from 0; the queue, the level of CS and the model's order count are outside it (log entry 3). What the fall leaves in each block
until the rise is log entry 6. -/
def Obligations.ResetPinEndsAndRestarts : Prop :=
  ∀ s : State,
    (s.resetLow = false → ∃ t, exec .resetnAssert s = .next t ∧ t.resetLow = true ∧ t.attn = false ∧ t.timeBase = s.timeBase ∧
      (∀ i, (t.input i).openFrame = none ∧ (t.input i).monitor = (s.input i).monitor ∧ (t.input i).badFrames = (s.input i).badFrames ∧
        ∀ k, ((t.input i).slots.get k).latest = true → ((s.input i).slots.get k).latest = true) ∧
      (∀ h, t.record h = { s.record h with body := (s.placement h).map fun p => { p with armed := false } }) ∧
      (∀ sc, (t.composer sc).composition = none ∧ (t.link sc).transmission = none ∧ (t.link sc).state = .down ∧
        (t.link sc).resetCount = none ∧ (t.link sc).windowCount = 0 ∧ (t.link sc).sent = (s.link sc).sent) ∧
      (∀ d, t.domain d = s.domain d) ∧ t.notices = s.notices ∧ t.port = { s.port with transaction := .idle }) ∧
    exec .resetnRelease s = .next { State.reset with
      port := { State.reset.port with csLow := s.port.csLow }, pending := s.pending, choiceCount := s.choiceCount }

/-- The state right after release of RESETn obeys every law of the device (R26, R72, R88, R105, R125, R166, R173, R183). -/
def Obligations.ResetStateIsSafe : Prop := Safe State.reset

/-! ### Commands and their responses -/

/-- A refused command changes nothing in its block: its one effect is the response it leaves, which replaces the one held (R170, R174).
Every command taken leaves a response, and NOTHING and BAD_COMMAND are never a taken command's (section 9.4). -/
def Obligations.RefusedCommandChangesOnlyTheResponse : Prop :=
  ∀ (c : Instr) (s t : State), isCommand c = true → s.resetLow = false → exec c s = .next t →
    ∃ r, t.port = { s.port with buffer := some r } ∧ r.code ≠ .nothing ∧ r.code ≠ .badCommand ∧
      (r.code ≠ .ok → t = { s with port := t.port })

/-- LOOKUP, LIST_SCREEN, LIST_SOURCE, QUERY_SOURCE, QUERY_SCREEN and QUERY_DOMAIN change nothing but the response buffer, which holds OK
and their report of the state as it stands (R23, R24, R25, R71, R101, R164); how the reports encode what R186 leaves open is log entries
10, 11 and 13. A handle of 64 or more (R1) and a byte that names no screen, input or domain are refused with BAD_FIELD. -/
def Obligations.QueriesReportAndChangeNothing : Prop :=
  ∀ (s : State) (b : Byte), s.resetLow = false →
    (∀ h, handleOf b = some h → exec (.lookup b) s = .next (s.respond .ok (recordItem (s.record h)))) ∧
    (∀ sc, screenOf b = some sc →
      exec (.listScreen b) s = .next (s.respond .ok (BitVec.ofNat 8 (s.liveList sc).length ::
        (s.liveList sc).flatMap fun h => [BitVec.ofNat 8 h.val, BitVec.ofNat 8 (s.committedLayer h)])) ∧
      exec (.queryScreen b) s = .next (s.respond .ok (screenReport s sc))) ∧
    (∀ i, inputOf b = some i →
      exec (.listSource b) s = .next (s.respond .ok (BitVec.ofNat 8 (s.dependents i).length :: (s.dependents i).flatMap s.dependentItem)) ∧
      exec (.querySource b) s = .next (s.respond .ok (sourceReport (s.input i) s.timeBase))) ∧
    (∀ d, domainOf b = some d → exec (.queryDomain b) s = .next (s.respond .ok (domainReport (s.domain d) s.timeBase))) ∧
    (64 ≤ b.toNat → exec (.lookup b) s = .next (s.respond .badField [])) ∧
    (4 ≤ b.toNat →
      exec (.listScreen b) s = .next (s.respond .badField []) ∧ exec (.queryScreen b) s = .next (s.respond .badField []) ∧
      exec (.listSource b) s = .next (s.respond .badField []) ∧ exec (.querySource b) s = .next (s.respond .badField [])) ∧
    (2 ≤ b.toNat → exec (.queryDomain b) s = .next (s.respond .badField []))

/-! ### Commands on placements -/

/-- OPEN of an image that passes takes the FREE record with the lowest handle, advances its generation, stores the fixed fields and the
staged image with flags and runtime fields at their first values, and answers with handle and generation; the screen's placement count
rises by one and nothing else changes (R4, R12, R18). -/
def Obligations.OpenTakesTheLowestFreeRecord : Prop :=
  ∀ (s : State) (b0 b1 b2 : Byte) (raw : RawImage) (sc : Screen) (cls : PlacementClass) (sel : Bool) (m : Image) (h : Handle),
    s.resetLow = false → screenOf b0 = some sc → classOf b1 = some cls → yesNoOf b2 = some sel → imageOf raw = some m →
    s.checkImage sc cls sel m = none → s.placement h = none → (∀ k, k < h → s.placement k ≠ none) → s.placementCount sc < 16 →
    ∃ t, exec (.openPlacement b0 b1 b2 (some raw)) s = .next t ∧
      t.record h = ⟨(s.record h).generation + 1,
        some { screen := sc, cls := cls, selectable := sel, committed := none, staged := m, armed := false, retireStaged := false,
               frozen := false, freezeRequest := none, view := none, latched := none, age := 0, lastFrame := 0, liveSince := none,
               joinPosition := none }⟩ ∧
      (∀ k, k ≠ h → t.record k = s.record k) ∧ t.placementCount sc = s.placementCount sc + 1 ∧
      t = { s with table := t.table,
                   port := { s.port with buffer := some ⟨.ok, [BitVec.ofNat 8 h.val, (s.record h).generation + 1]⟩ } }

/-- OPEN refuses in its order: BAD_FIELD for a value outside its list or an image the port could not work out, then the code of the first
image check that fails, then NO_ENTRY without a FREE record, then SCREEN_FULL at 16 placements (R13, R14, R18). -/
def Obligations.OpenRefusesInOrder : Prop :=
  ∀ (s : State) (b0 b1 b2 : Byte) (raw : Option RawImage), s.resetLow = false →
    ((screenOf b0 = none ∨ classOf b1 = none ∨ yesNoOf b2 = none ∨ raw.bind imageOf = none) →
      exec (.openPlacement b0 b1 b2 raw) s = .next (s.respond .badField [])) ∧
    (∀ sc cls sel m, screenOf b0 = some sc → classOf b1 = some cls → yesNoOf b2 = some sel → raw.bind imageOf = some m →
      (∀ code, s.checkImage sc cls sel m = some code → exec (.openPlacement b0 b1 b2 raw) s = .next (s.respond code [])) ∧
      (s.checkImage sc cls sel m = none →
        ((∀ h, s.placement h ≠ none) → exec (.openPlacement b0 b1 b2 raw) s = .next (s.respond .noEntry [])) ∧
        ((∃ h, s.placement h = none) → 16 ≤ s.placementCount sc →
          exec (.openPlacement b0 b1 b2 raw) s = .next (s.respond .screenFull []))))

/-- What the four steps of R13 leave: a SAFETY image is on S0 or S1, opaque, drawn by OVER, with a hold limit of 1 to 15, policy FILL or
ALTERNATE, and not selectable; a selectable one is on S2 or S3 and its source is an entry of its choice list of 1 to 8; the alternate
source differs from the source; the target lies within the screen, and a source rectangle within its input's frame (R8, R10, R11, R15,
R16). -/
def Obligations.PassedImagesKeepThePromises : Prop :=
  ∀ (s : State) (raw : RawImage) (m : Image) (sc : Screen) (cls : PlacementClass) (sel : Bool),
    imageOf raw = some m → s.checkImage sc cls sel m = none →
    (cls = .safety → isRearScreen sc = false ∧ m.opacity = 256 ∧ m.blend = .over ∧ 1 ≤ m.holdLimit ∧ m.holdLimit ≤ 15 ∧
      (m.policy = .fill ∨ m.policy = .alternate) ∧ sel = false) ∧
    (sel = true → isRearScreen sc = true ∧ m.sourceRect = none ∧
      ∃ l i, m.choices = some l ∧ 1 ≤ l.length ∧ l.length ≤ 8 ∧ i ∈ l ∧ m.source = .input i) ∧
    (∀ i, m.alternate = some i → m.policy = .alternate ∧ m.source ≠ .input i ∧ ∀ l, m.choices = some l → i ∉ l) ∧
    (1 ≤ m.target.w ∧ 1 ≤ m.target.h ∧ m.target.x + m.target.w ≤ (s.link sc).config.width ∧
      m.target.y + m.target.h ≤ (s.link sc).config.height) ∧ m.layer ≤ 7 ∧ m.opacity ≤ 256 ∧
    (∀ i r, m.source = .input i → m.sourceRect = some r →
      r.x + r.w ≤ (s.input i).config.width ∧ r.y + r.h ≤ (s.input i).config.height ∧
      r.w ≤ 4 * m.target.w ∧ m.target.w ≤ 8 * r.w ∧ r.h ≤ 4 * m.target.h ∧ m.target.h ≤ 8 * r.h)

/-- AMEND and RETIRE make their checks on the record in one order: BAD_FIELD for a handle of 64 or more or a flag that is neither yes nor
no, NOT_OPEN, ARMED whatever the generation, STALE_GENERATION while the unconditional flag is clear, WRONG_STATE; then AMEND refuses with
FIELD_FIXED or the code of its image (R19, R21; where the flag is read, and an AMEND's own list, are log entries 7 and 23). -/
def Obligations.AmendAndRetireRefuseInOrder : Prop :=
  ∀ (s : State) (b g u : Byte) (es : List RawField), s.resetLow = false →
    ∀ c ∈ [Instr.amend b g u (some es), Instr.retire b g u],
    ((handleOf b = none ∨ yesNoOf u = none) → exec c s = .next (s.respond .badField [])) ∧
    exec (.amend b g u none) s = .next (s.respond .badField []) ∧
    ∀ h unc, handleOf b = some h → yesNoOf u = some unc →
      (s.placement h = none → exec c s = .next (s.respond .notOpen [])) ∧
      ∀ p, s.placement h = some p →
        (p.armed = true → exec c s = .next (s.respond .armed [])) ∧
        (p.armed = false → unc = false → g ≠ (s.record h).generation → exec c s = .next (s.respond .staleGeneration [])) ∧
        (p.armed = false → (unc = true ∨ g = (s.record h).generation) →
          (p.retireStaged = true → exec c s = .next (s.respond .wrongState [])) ∧
          (p.retireStaged = false →
            ((∃ f ∈ es, 13 ≤ f.number) → exec (.amend b g u (some es)) s = .next (s.respond .fieldFixed [])) ∧
            ∀ code, s.amendedImage p es = .error code → exec (.amend b g u (some es)) s = .next (s.respond code [])))

/-- AMEND of a record that passes its checks writes the amended image as the staged image, advances the generation by one and answers
with it; the committed image, the flags, the runtime fields and everything else stay (R20). Its list is not empty, names no field twice
and no fixed field; every field listed has the value given, every field not listed the value the staged image had; and the whole image
passes the checks (R13, R14, R19). -/
def Obligations.AmendStagesTheImage : Prop :=
  ∀ (s : State) (b g u : Byte) (es : List RawField) (h : Handle) (unc : Bool) (p : Placement) (m : Image),
    s.resetLow = false → handleOf b = some h → yesNoOf u = some unc → s.placement h = some p → p.armed = false →
    (unc = true ∨ g = (s.record h).generation) → p.retireStaged = false → s.amendedImage p es = .ok m →
    (∃ t, exec (.amend b g u (some es)) s = .next t ∧
      t.record h = ⟨(s.record h).generation + 1, some { p with staged := m }⟩ ∧ (∀ k, k ≠ h → t.record k = s.record k) ∧
      t = { s with table := t.table, port := { s.port with buffer := some ⟨.ok, [(s.record h).generation + 1]⟩ } }) ∧
    es ≠ [] ∧ (es.map RawField.number).Nodup ∧ (∀ f ∈ es, f.number ≤ 12 ∧ m.write f = some m) ∧
    s.checkImage p.screen p.cls p.selectable m = none ∧
    (1 ∉ es.map RawField.number → m.source = p.staged.source) ∧
    (2 ∉ es.map RawField.number → m.sourceRect = p.staged.sourceRect) ∧
    (3 ∉ es.map RawField.number → m.target = p.staged.target) ∧
    (4 ∉ es.map RawField.number → m.layer = p.staged.layer) ∧
    (5 ∉ es.map RawField.number → m.opacity = p.staged.opacity) ∧
    (6 ∉ es.map RawField.number → m.blend = p.staged.blend) ∧
    (7 ∉ es.map RawField.number → m.key = p.staged.key) ∧
    (8 ∉ es.map RawField.number → m.policy = p.staged.policy) ∧
    (9 ∉ es.map RawField.number → m.alternate = p.staged.alternate) ∧
    (10 ∉ es.map RawField.number → m.fill = p.staged.fill) ∧
    (11 ∉ es.map RawField.number → m.holdLimit = p.staged.holdLimit) ∧
    (12 ∉ es.map RawField.number → m.choices = p.staged.choices)

/-- RETIRE of a NEW record frees it at once with its generation kept, withdraws its view entries and answers with that generation and the
state FREE; of a LIVE record it stages the retirement, advances the generation and answers with the new one and the state LIVE. Nothing
else changes (R21, R181). -/
def Obligations.RetireFreesNewAndStagesLive : Prop :=
  ∀ (s : State) (b g u : Byte) (h : Handle) (unc : Bool) (p : Placement),
    s.resetLow = false → handleOf b = some h → yesNoOf u = some unc → s.placement h = some p → p.armed = false →
    (unc = true ∨ g = (s.record h).generation) → p.retireStaged = false →
    (p.committed = none → p.latched = none →
      ∃ t, exec (.retire b g u) s = .next t ∧ t.record h = ⟨(s.record h).generation, none⟩ ∧ (∀ k, k ≠ h → t.record k = s.record k) ∧
        t = { s with
          table := t.table
          notices := { s.notices with entries := s.notices.entries.filter fun e => e.key ≠ .view h ∧ e.key ≠ .safetyView h }
          port := { s.port with buffer := some ⟨.ok, [(s.record h).generation, 0]⟩ } }) ∧
    (p.committed ≠ none →
      ∃ t, exec (.retire b g u) s = .next t ∧
        t.record h = ⟨(s.record h).generation + 1, some { p with retireStaged := true }⟩ ∧ (∀ k, k ≠ h → t.record k = s.record k) ∧
        t = { s with table := t.table, port := { s.port with buffer := some ⟨.ok, [(s.record h).generation + 1, 2]⟩ } })

/-- FREEZE and THAW set the freeze request of a LIVE ORDINARY record, replacing any earlier one, and answer with it; neither changes the
generation, the images, any other flag or anything else. They refuse a FREE record with NOT_OPEN, a SAFETY one with SAFETY_RULE and a NEW
one with WRONG_STATE, in that order, and a handle of 64 or more with BAD_FIELD before (R1, R22). Step 3 of a frame start then takes the
request of each LIVE record of the screen: FREEZE freezes it, and it gives up a slot of an input other than its committed source unless
it was frozen already; THAW clears frozen and keeps the slot; either way no request is left (R135). -/
def Obligations.FreezeAndThawSetTheRequest : Prop :=
  (∀ (s : State) (b : Byte), s.resetLow = false → 64 ≤ b.toNat →
    exec (.freeze b) s = .next (s.respond .badField []) ∧ exec (.thaw b) s = .next (s.respond .badField [])) ∧
  (∀ (s : State) (sc : Screen) (h : Handle) (p : Placement), s.placement h = some p →
    ((p.committed = none ∨ p.screen ≠ sc ∨ p.freezeRequest = none) → (s.takeFreezes sc).record h = s.record h) ∧
    ∀ m r, p.committed = some m → p.screen = sc → p.freezeRequest = some r →
      (s.takeFreezes sc).record h = { s.record h with body := some { p with
        freezeRequest := none
        frozen := decide (r = .freeze)
        latched := if r = .freeze ∧ p.frozen = false ∧ (p.latched.any fun x => decide (m.source ≠ .input x.input)) = true then none
                   else p.latched } }) ∧
  (∀ (s t : State) (d : Domain) (h : Handle) (p q : Placement), s.resetLow = false → (s.domain d).nextStart = s.timeBase →
    exec (.domainFrameStart d) s = .next t → s.placement h = some p → t.placement h = some q → screenDomain q.screen = d →
    q.committed ≠ none →
      q.freezeRequest = none ∧ q.frozen = (match p.freezeRequest with | none => p.frozen | some r => decide (r = .freeze))) ∧
  ∀ (s : State) (b : Byte) (h : Handle), s.resetLow = false → handleOf b = some h →
    ∀ x ∈ [(Instr.freeze b, FreezeRequest.freeze, (0 : Byte)), (Instr.thaw b, FreezeRequest.thaw, (1 : Byte))],
      (s.placement h = none → exec x.1 s = .next (s.respond .notOpen [])) ∧
      ∀ p, s.placement h = some p →
        (p.cls = .safety → exec x.1 s = .next (s.respond .safetyRule [])) ∧
        (p.cls = .ordinary → p.committed = none → exec x.1 s = .next (s.respond .wrongState [])) ∧
        (p.cls = .ordinary → p.committed ≠ none →
          ∃ t, exec x.1 s = .next t ∧ t.record h = { s.record h with body := some { p with freezeRequest := some x.2.1 } } ∧
            (∀ k, k ≠ h → t.record k = s.record k) ∧
            t = { s with table := t.table, port := { s.port with buffer := some ⟨.ok, [1, x.2.2]⟩ } })

/-- A COMMIT all of whose screens pass their admission checks arms every NEW or LIVE record of those screens that has staged differences,
and answers OK with each named screen's count of armed records, in ascending order of screens; it changes no image, no generation and
nothing else (R34; the order and the count byte of the answer are log entry 8). -/
def Obligations.CommitArmsEveryStagedDifference : Prop :=
  ∀ (s : State) (l : List Byte) (named : List Screen), s.resetLow = false → readAll screenOf l = some named → named ≠ [] →
    named.Nodup → (∀ sc ∈ named, s.admissionFault sc = none) →
    ∃ t, exec (.commit (some l)) s = .next t ∧
      (∀ h, t.record h = { s.record h with body := (s.placement h).map fun p =>
        if p.screen ∈ named ∧ (p.retireStaged = true ∨ p.committed ≠ some p.staged) then { p with armed := true } else p }) ∧
      t = { s with
        table := t.table
        port := { s.port with buffer := some ⟨.ok, BitVec.ofNat 8 named.length ::
          ((allScreens.filter fun sc => decide (sc ∈ named)).map fun sc => BitVec.ofNat 8
            (allHandles.filter fun h => (t.placement h).any fun p => decide (p.screen = sc) && p.armed).length)⟩ } }

/-- COMMIT refuses a list that is empty, names a screen twice or names no screen with BAD_FIELD; otherwise the first screen in ascending
order that fails gives the code and the details, its checks taken in the order line coverage, occlusion, selectable count. Nothing is
armed (R29, R30). -/
def Obligations.CommitReportsTheFirstFault : Prop :=
  ∀ (s : State) (l : List Byte), s.resetLow = false →
    exec (.commit none) s = .next (s.respond .badField []) ∧
    (readAll screenOf l = none → exec (.commit (some l)) s = .next (s.respond .badField [])) ∧
    ∀ named, readAll screenOf l = some named →
      ((named = [] ∨ ¬ named.Nodup) → exec (.commit (some l)) s = .next (s.respond .badField [])) ∧
      ∀ sc ∈ named, named.Nodup → (∀ x ∈ named, screenNumber x < screenNumber sc → s.admissionFault x = none) →
        (∀ line n, overlapFault (s.link sc).config.height ((s.wouldBe sc).map fun c => c.image.target) = some (line, n) →
          exec (.commit (some l)) s = .next (s.respond .overlapLimit
            [BitVec.ofNat 8 (screenNumber sc), BitVec.ofNat 8 line, BitVec.ofNat 8 (line / 256), BitVec.ofNat 8 n])) ∧
        (overlapFault (s.link sc).config.height ((s.wouldBe sc).map fun c => c.image.target) = none →
          (∀ h k, occlusionFault (s.wouldBe sc) = some (h, k) →
            exec (.commit (some l)) s = .next (s.respond .occlusion
              [BitVec.ofNat 8 (screenNumber sc), BitVec.ofNat 8 h.val, BitVec.ofNat 8 k.val])) ∧
          (occlusionFault (s.wouldBe sc) = none → ∀ h k, selectFault sc (s.wouldBe sc) = some (h, k) →
            exec (.commit (some l)) s = .next (s.respond .selectLimit
              [BitVec.ofNat 8 (screenNumber sc), BitVec.ofNat 8 h.val, BitVec.ofNat 8 k.val])))

/-- What the three admission checks find: the lowest line more than 6 rectangles cover, with their number (R31); the first SAFETY record
from the bottom that a record above it shares a pixel with, with the lowest such record (R32), so that no SAFETY record below it shares a
pixel with any record above; and on S2 and S3 alone, the two lowest handles of the selectable records when there is more than one (R33). -/
def Obligations.AdmissionChecksFindTheFirstFault : Prop :=
  (∀ (height line n : Nat) (rects : List Rect),
    (overlapFault height rects = some (line, n) ↔
      line < height ∧ n = (rects.filter fun r => decide (r.y ≤ line ∧ line < r.y + r.h)).length ∧ 6 < n ∧
      ∀ k < line, (rects.filter fun r => decide (r.y ≤ k ∧ k < r.y + r.h)).length ≤ 6)) ∧
  (∀ p q : Rect, 1 ≤ p.w → 1 ≤ p.h → 1 ≤ q.w → 1 ≤ q.h →
    (p.intersects q = true ↔ ∃ column line,
      (p.x ≤ column ∧ column < p.x + p.w ∧ p.y ≤ line ∧ line < p.y + p.h) ∧
      (q.x ≤ column ∧ column < q.x + q.w ∧ q.y ≤ line ∧ line < q.y + q.h))) ∧
  (∀ l : List Candidate,
    (occlusionFault l = none ↔
      l.Pairwise fun c x => c.placement.cls = .safety → c.image.target.intersects x.image.target = false) ∧
    ∀ h k, occlusionFault l = some (h, k) →
      ∃ below c between x above, l = below ++ c :: (between ++ x :: above) ∧ c.handle = h ∧ x.handle = k ∧
        c.placement.cls = .safety ∧ c.image.target.intersects x.image.target = true ∧
        (∀ y ∈ between, c.image.target.intersects y.image.target = false) ∧
        ∀ low a high, below = low ++ a :: high → a.placement.cls = .safety →
          ∀ y ∈ high ++ c :: (between ++ x :: above), a.image.target.intersects y.image.target = false) ∧
  (∀ (sc : Screen) (l : List Candidate),
    (isRearScreen sc = false → selectFault sc l = none) ∧
    (isRearScreen sc = true → ∀ selected : Handle → Prop,
      (∀ h, selected h ↔ ∃ c ∈ l, c.handle = h ∧ c.placement.selectable = true) →
      (selectFault sc l = none ↔ ∀ h k, selected h → selected k → h = k) ∧
      ∀ h k, selectFault sc l = some (h, k) ↔ h < k ∧ selected h ∧ selected k ∧ ∀ j, selected j → j = h ∨ k ≤ j))

/-! ### Commands on an input -/

/-- RESET_SOURCE, and a SET_SOURCE that passes its three checks, which stores its seven settings first: the open frame is discarded
without judgement and its slot freed, the latest mark is removed and its slot freed if nothing holds it, the monitor becomes ABSENT with
its runs, timer, times and numbers cleared, and the two counters are kept; every held slot keeps its picture; a LOCKED domain of the
input goes to HOLDOVER when the monitor leaves LOCKED. Nothing else changes but the notices and the response OK (R67, R68, R70, R86,
R95). -/
def Obligations.RestartingASourceClearsItsContext : Prop :=
  ∀ (s : State) (b : Byte) (i : InputId), s.resetLow = false → inputOf b = some i →
    ∀ (c : Instr) (config : SourceConfig),
      ((c = .resetSource b ∧ config = (s.input i).config) ∨
        (∃ w h d p t n m, c = .setSource b w h d p t n m ∧
          config = ⟨w.toNat, h.toNat, d.toNat, p.toNat, t.toNat, n.toNat, m.toNat⟩ ∧
          (16 ≤ w.toNat ∧ w.toNat ≤ 1920) ∧ (16 ≤ h.toNat ∧ h.toNat ≤ 1080) ∧ (d.toNat = 8 ∨ d.toNat = 10) ∧
          (8333 ≤ p.toNat ∧ p.toNat ≤ 40000) ∧ t.toNat ≤ 2000 ∧ (1 ≤ n.toNat ∧ n.toNat ≤ 8) ∧ (1 ≤ m.toNat ∧ m.toNat ≤ 8) ∧
          (∀ x delay, ((s.domain x).settings.mode = .lock i delay ∨
              ∃ q, (s.domain x).pendingSettings = some q ∧ q.mode = .lock i delay) → delay + t.toNat < p.toNat) ∧
          ∀ x q, s.placement x = some q → q.names i = true → q.fitsGeometry (s.geometryWith i config) = true)) →
      ∃ t, exec c s = .next t ∧
        (∀ j, j ≠ i → t.input j = s.input j) ∧
        t.input i = { (s.input i) with
          config := config, monitor := .absent, goodRun := 0, badRun := 0, openFrame := none, previousStart := none, frameNumber := 0,
          timestamp := 0, measuredPeriod := none, senderTag := 0, timer := none, slots := (t.input i).slots } ∧
        (∀ k, (t.input i).slots.get k =
          if (s.input i).openFrame.bind OpenFrame.slot = some k then .empty
          else if ((s.input i).slots.get k).latest = true ∧ ((s.input i).slots.get k).holders = 0 then .empty
          else { (s.input i).slots.get k with latest := false }) ∧
        (∀ d, t.domain d =
          if (s.input i).monitor = .locked ∧ (s.domain d).mode = .locked ∧ (s.domain d).settings.locksTo i = true
          then { s.domain d with mode := .holdover } else s.domain d) ∧
        t = { s with inputs := t.inputs, domains := t.domains, notices := t.notices,
                     port := { s.port with buffer := some ⟨.ok, []⟩ } }

/-- SET_SOURCE refuses with the first of its checks that fails: BAD_FIELD with the first setting out of range, in the table's order;
BAD_FIELD with the first domain whose lock delay, in effect or pending, is not below the proposed period less the tolerance;
SOURCE_BOUNDS with the lowest handle whose images would not fit. A byte that names no input is refused with BAD_FIELD first, as for
RESET_SOURCE (R67; the numbering of the settings and the order of the domains are log entry 9). -/
def Obligations.SetSourceRefusesInOrder : Prop :=
  ∀ (s : State) (b : Byte) (w h : Half) (d : Byte) (p t : Half) (n m : Byte), s.resetLow = false →
    (inputOf b = none → exec (.setSource b w h d p t n m) s = .next (s.respond .badField []) ∧
      exec (.resetSource b) s = .next (s.respond .badField [])) ∧
    ∀ i, inputOf b = some i →
      (∀ x, (SourceConfig.inRange ⟨w.toNat, h.toNat, d.toNat, p.toNat, t.toNat, n.toNat, m.toNat⟩)[x]? = some false →
        (∀ y < x, (SourceConfig.inRange ⟨w.toNat, h.toNat, d.toNat, p.toNat, t.toNat, n.toNat, m.toNat⟩)[y]? = some true) →
        exec (.setSource b w h d p t n m) s = .next (s.respond .badField [BitVec.ofNat 8 x])) ∧
      ((∀ x ∈ SourceConfig.inRange ⟨w.toNat, h.toNat, d.toNat, p.toNat, t.toNat, n.toNat, m.toNat⟩, x = true) →
        (∀ x, s.lockFault i ⟨w.toNat, h.toNat, d.toNat, p.toNat, t.toNat, n.toNat, m.toNat⟩ = some x →
          exec (.setSource b w h d p t n m) s = .next (s.respond .badField [BitVec.ofNat 8 (domainNumber x)])) ∧
        (s.lockFault i ⟨w.toNat, h.toNat, d.toNat, p.toNat, t.toNat, n.toNat, m.toNat⟩ = none → ∀ x q,
          s.placement x = some q → q.names i = true →
          q.fitsGeometry (s.geometryWith i ⟨w.toNat, h.toNat, d.toNat, p.toNat, t.toNat, n.toNat, m.toNat⟩) = false →
          (∀ y r, y < x → s.placement y = some r → r.names i = true →
            r.fitsGeometry (s.geometryWith i ⟨w.toNat, h.toNat, d.toNat, p.toNat, t.toNat, n.toNat, m.toNat⟩) = true) →
          exec (.setSource b w h d p t n m) s = .next (s.respond .sourceBounds [BitVec.ofNat 8 x.val])))

/-! ### Commands on a screen -/

/-- SET_SCREEN stores its four settings when each is in range, the link is DOWN and the screen has no placement, and refuses in that
order (the settings numbered from 0, log entry 9); SET_SCREEN_TONE stores the clamped tone in every link state and answers with it.
Nothing else changes (R162, R163). A byte that names no screen is refused with BAD_FIELD. The tone stored is the background and gain in
effect from the next frame start of the screen's domain on (R39, R106, R163). -/
def Obligations.ScreenSettingsAreStored : Prop :=
  (∀ (s : State) (b : Byte), s.resetLow = false → 4 ≤ b.toNat →
    (∀ (w h : Half) (d e : Byte), exec (.setScreen b w h d e) s = .next (s.respond .badField [])) ∧
    ∀ (c : RawColour) (g : Half), exec (.setScreenTone b c g) s = .next (s.respond .badField [])) ∧
  (∀ (s t : State) (sc : Screen), s.resetLow = false → (s.domain (screenDomain sc)).nextStart = s.timeBase →
    exec (.domainFrameStart (screenDomain sc)) s = .next t →
      (t.composer sc).background = (s.link sc).tone.background ∧ (t.composer sc).gain = (s.link sc).tone.gain ∧
      (t.link sc).tone = (s.link sc).tone) ∧
  ∀ (s : State) (b : Byte) (sc : Screen), s.resetLow = false → screenOf b = some sc →
    (∀ (w h : Half) (d e : Byte),
      ((320 ≤ w.toNat ∧ w.toNat ≤ 2560) ∧ (240 ≤ h.toNat ∧ h.toNat ≤ 1600) ∧ (d.toNat = 8 ∨ d.toNat = 10) →
        ((s.link sc).state = .down →
          ((∀ x p, s.placement x = some p → p.screen ≠ sc) →
            exec (.setScreen b w h d e) s = .next { s with
              links := s.links.set sc { s.link sc with config := ⟨w.toNat, h.toNat, d.toNat, e.toNat⟩ }
              port := { s.port with buffer := some ⟨.ok, []⟩ } }) ∧
          ((∃ x p, s.placement x = some p ∧ p.screen = sc) → exec (.setScreen b w h d e) s = .next (s.respond .screenInUse []))) ∧
        ((s.link sc).state ≠ .down → exec (.setScreen b w h d e) s = .next (s.respond .wrongState []))) ∧
      (¬ (320 ≤ w.toNat ∧ w.toNat ≤ 2560) → exec (.setScreen b w h d e) s = .next (s.respond .badField [0])) ∧
      ((320 ≤ w.toNat ∧ w.toNat ≤ 2560) → ¬ (240 ≤ h.toNat ∧ h.toNat ≤ 1600) →
        exec (.setScreen b w h d e) s = .next (s.respond .badField [1])) ∧
      ((320 ≤ w.toNat ∧ w.toNat ≤ 2560) → (240 ≤ h.toNat ∧ h.toNat ≤ 1600) → ¬ (d.toNat = 8 ∨ d.toNat = 10) →
        exec (.setScreen b w h d e) s = .next (s.respond .badField [2]))) ∧
    (∀ (c : RawColour) (g : Half),
      exec (.setScreenTone b c g) s = .next { s with
        links := s.links.set sc { s.link sc with
          tone := ⟨⟨min 1023 c.r.toNat, min 1023 c.g.toNat, min 1023 c.b.toNat⟩, min 2047 g.toNat⟩ }
        port := { s.port with buffer := some ⟨.ok,
          halfItem (min 1023 c.r.toNat) ++ halfItem (min 1023 c.g.toNat) ++ halfItem (min 1023 c.b.toNat) ++
          halfItem (min 2047 g.toNat)⟩ } })

/-- ENABLE_LINK in DOWN, DISABLE_LINK in any state but DOWN and RESET_LINK in TRAINING, UP, RECOVERING or HALTED move the link as R152
gives; DISABLE_LINK in DOWN changes nothing, and RESET_LINK in RESETTING sets the reset count back to 2 without a notice. ENABLE_LINK in
any other state and RESET_LINK in DOWN are refused with WRONG_STATE. Nothing else changes but the notice set (R152, R159, R160, R161). A
byte that names no screen is refused with BAD_FIELD. The begin of the reset pattern stands in the model's own record `sent` (log entry
15). -/
def Obligations.LinkCommandsMoveTheLink : Prop :=
  (∀ (s : State) (b : Byte), s.resetLow = false → 4 ≤ b.toNat →
    exec (.enableLink b) s = .next (s.respond .badField []) ∧ exec (.disableLink b) s = .next (s.respond .badField []) ∧
    exec (.resetLink b) s = .next (s.respond .badField [])) ∧
  ∀ (s : State) (b : Byte) (sc : Screen), s.resetLow = false → screenOf b = some sc →
    ((s.link sc).state = .down →
      (∃ t, exec (.enableLink b) s = .next t ∧
        t = { s with
          links := s.links.set sc { s.link sc with
            state := .training, trainedRun := 0, windowCount := 0, missingRun := 0, errorRun := 0, resetCount := none,
            interval := ⟨false, false, false, none⟩ }
          notices := t.notices, port := { s.port with buffer := some ⟨.ok, []⟩ } }) ∧
      exec (.disableLink b) s = .next (s.respond .ok []) ∧ exec (.resetLink b) s = .next (s.respond .wrongState [])) ∧
    ((s.link sc).state ≠ .down →
      exec (.enableLink b) s = .next (s.respond .wrongState []) ∧
      (∃ t, exec (.disableLink b) s = .next t ∧
        t = { s with
          links := s.links.set sc { s.link sc with
            state := .down, trainedRun := 0, windowCount := 0, missingRun := 0, errorRun := 0, resetCount := none,
            interval := ⟨false, false, false, none⟩, transmission := none }
          notices := t.notices, port := { s.port with buffer := some ⟨.ok, []⟩ } }) ∧
      ((s.link sc).state = .resetting →
        exec (.resetLink b) s = .next { s with
          links := s.links.set sc { s.link sc with resetCount := some 2 }, port := { s.port with buffer := some ⟨.ok, []⟩ } }) ∧
      ((s.link sc).state ≠ .resetting →
        ∃ t, exec (.resetLink b) s = .next t ∧
          t = { s with
            links := s.links.set sc { s.link sc with
              state := .resetting, resetCount := some 2, transmission := none, sent := (s.link sc).sent ++ [.resetPattern] }
            notices := t.notices, port := { s.port with buffer := some ⟨.ok, []⟩ } }))

/-! ### Commands on a domain and on the notice unit -/

/-- SET_DOMAIN stores its settings as the domain's pending settings, replacing any present, and nothing else changes; it is refused with
BAD_FIELD when the domain, the mode, the FREE period, the lock input or the lock delay is out of range, or when the lock fields are
present with FREE or absent with LOCK (R99). -/
def Obligations.SetDomainWaitsAsPending : Prop :=
  ∀ (s : State) (b m : Byte) (p : Half) (lock : RawLock), s.resetLow = false →
    ∀ mode : Option DomainMode,
      ((m = 0 ∧ lock = .absent ∧ mode = some .free) ∨
       (∃ x delay i, m = 1 ∧ lock = .present x delay ∧ inputOf x = some i ∧
          delay.toNat + (s.input i).config.tolerance < (s.input i).config.period ∧ mode = some (.lock i delay.toNat)) ∨
       (¬ (m = 0 ∧ lock = .absent) ∧
          (∀ x delay i, m = 1 → lock = .present x delay → inputOf x = some i →
            (s.input i).config.period ≤ delay.toNat + (s.input i).config.tolerance) ∧ mode = none)) →
      (∀ d t, domainOf b = some d → mode = some t → 8333 ≤ p.toNat → p.toNat ≤ 40000 →
        exec (.setDomain b m p lock) s = .next { s with
          domains := s.domains.set d { s.domain d with pendingSettings := some ⟨t, p.toNat⟩ }
          port := { s.port with buffer := some ⟨.ok, []⟩ } }) ∧
      ((domainOf b = none ∨ mode = none ∨ ¬ (8333 ≤ p.toNat ∧ p.toNat ≤ 40000)) →
        exec (.setDomain b m p lock) s = .next (s.respond .badField []))

/-- TAKE_NOTICE removes the entry of highest priority and lowest subject and answers with it: kind, subject, count, current value and
entries left; the removal is its whole effect, and ATTN stays asserted exactly while entries are left. On an empty set it answers kind
NONE and changes nothing (R178, R179; the presence bytes and the bytes of NONE are log entry 12). The current value of each kind is what
R180 names, by the numbers of R186; where two selectable records were LIVE on one screen the lowest handle counts (log entry 19). -/
def Obligations.TakeNoticeReturnsTheMostImportant : Prop :=
  (∀ s : State,
    (∀ h n v, (s.placement h).bind Placement.view = some v →
      [View.showing, .holding, .filled, .alternate, .hidden, .frozen][n]? = some v →
      s.currentValue (.view h) = [1, BitVec.ofNat 8 n] ∧ s.currentValue (.safetyView h) = [1, BitVec.ofNat 8 n]) ∧
    (∀ h, (s.placement h).bind Placement.view = none → s.currentValue (.view h) = [0] ∧ s.currentValue (.safetyView h) = [0]) ∧
    (∀ sc n, [LinkState.down, .training, .up, .recovering, .halted, .resetting][n]? = some (s.link sc).state →
      s.currentValue (.linkState sc) = [1, BitVec.ofNat 8 n]) ∧
    (∀ i n, [MonitorState.absent, .acquiring, .locked, .lost][n]? = some (s.input i).monitor →
      s.currentValue (.sourceState i) = [1, BitVec.ofNat 8 n]) ∧
    (∀ d n, [SyncState.unsynced, .synced, .syncLost][n]? = some (s.domain d).sync →
      s.currentValue (.syncState d) = [1, BitVec.ofNat 8 n]) ∧
    (∀ d n, [ModeState.free, .locked, .holdover][n]? = some (s.domain d).mode →
      s.currentValue (.domainMode d) = [1, BitVec.ofNat 8 n]) ∧
    (∀ sc n, n = (s.composer sc).lastApplied → s.currentValue (.applied sc) = [1, BitVec.ofNat 8 n, BitVec.ofNat 8 (n / 256)]) ∧
    (∀ i n, n = (s.input i).dropped → s.currentValue (.drop i) = [1, BitVec.ofNat 8 n, BitVec.ofNat 8 (n / 256)]) ∧
    ∀ sc, ∀ selected : Handle → Image → Prop,
      (∀ h m, selected h m ↔ ∃ p, s.placement h = some p ∧ p.screen = sc ∧ p.selectable = true ∧ p.committed = some m) →
      ((∀ h m, ¬ selected h m) → s.currentValue (.passengerChoice sc) = [0]) ∧
      ∀ h m, selected h m → (∀ k n, selected k n → h ≤ k) →
        (∀ i, m.source = .input i → s.currentValue (.passengerChoice sc) = [1, BitVec.ofNat 8 (inputNumber i)]) ∧
        (m.source = .solid → s.currentValue (.passengerChoice sc) = [1, 4])) ∧
  ∀ s : State, s.resetLow = false →
    (s.notices.entries = [] → exec .takeNotice s = .next (s.respond .ok [0, 0, 0, 0, 0]) ∧ s.attn = false) ∧
    (NoticeLaw s → ∀ e ∈ s.notices.entries,
      (∀ x ∈ s.notices.entries, x ≠ e → e.key.kind.priority < x.key.kind.priority ∨
        (e.key.kind.priority = x.key.kind.priority ∧ e.key.subject < x.key.subject)) →
      ∃ t, exec .takeNotice s = .next t ∧
        t = { s with
          notices := { s.notices with entries := s.notices.entries.filter fun x => x ≠ e }
          port := { s.port with buffer := some ⟨.ok,
            [BitVec.ofNat 8 e.key.kind.priority, 1, BitVec.ofNat 8 e.key.subject, BitVec.ofNat 8 e.count] ++ s.currentValue e.key ++
            [BitVec.ofNat 8 (s.notices.entries.length - 1)]⟩ } } ∧
        (t.attn = true ↔ 2 ≤ s.notices.entries.length) ∧ s.attn = true)

/-- MASK_NOTICES applies its whole list: a kind set to masked loses its pending entries, kinds not named keep their masks, nothing else
changes, and the answer carries the nine masks (without a count, log entry 11). It is refused with BAD_FIELD when the list is empty,
longer than nine, names a kind twice or holds a value outside its lists (R182). -/
def Obligations.MaskNoticesAppliesTheWholeList : Prop :=
  ∀ (s : State) (l : List (Byte × Byte)), s.resetLow = false →
    exec (.maskNotices none) s = .next (s.respond .badField []) ∧
    (readAll maskPairOf l = none → exec (.maskNotices (some l)) s = .next (s.respond .badField [])) ∧
    ∀ ps, readAll maskPairOf l = some ps →
      ((ps = [] ∨ 9 < ps.length ∨ ¬ (ps.map Prod.fst).Nodup) → exec (.maskNotices (some l)) s = .next (s.respond .badField [])) ∧
      (ps ≠ [] → ps.length ≤ 9 → (ps.map Prod.fst).Nodup →
        ∃ t, exec (.maskNotices (some l)) s = .next t ∧
          (∀ k v, (k, v) ∈ ps → t.notices.masks.get k = v) ∧
          (∀ k, k ∉ ps.map Prod.fst → t.notices.masks.get k = s.notices.masks.get k) ∧
          t.notices.entries = s.notices.entries.filter (fun e => decide ((e.key.kind, true) ∉ ps)) ∧
          t = { s with
            notices := t.notices
            port := { s.port with buffer := some ⟨.ok, allKinds.map fun k => if t.notices.masks.get k then 0 else 1⟩ } })

/-! ### The command port -/

/-- COMMAND_FRAME_REJECTED leaves BAD_COMMAND with the reason and the command code received, or none, and nothing else. FETCH_TRANSACTION
drives the response frame and then the filler, and empties the buffer exactly when every byte of the frame was clocked out; an empty
buffer gives NOTHING with length 0 and stays empty (R169, R171). The bytes driven stand in the model's own record `miso` (log entry 16).
The transaction state below them (R167, R168): the fall of CS opens a transaction unless RESETn is held low, the first byte makes it a
fetch or a command, and its rise ends the transaction. R168 takes the command that the bytes spell at the rise; that the rise puts it at
the end of the queue `pending`, behind those that wait, is the model's choice (log entry 20). MISO carries the response frame in a fetch,
the filler in any other transaction, and is at high impedance while CS is high or RESETn is held low (R167, R171, R184, log entry 16). -/
def Obligations.PortTransactionsTouchOnlyThePort : Prop :=
  (∀ s : State,
    (s.resetLow = false → s.csFall = { s with port := { s.port with csLow := true, transaction := .opening } }) ∧
    (s.resetLow = true → s.csFall = { s with port := { s.port with csLow := true } }) ∧
    (∀ b : Byte,
      (s.port.transaction = .idle → s.clockByte b = s) ∧
      (s.port.transaction = .opening →
        s.clockByte b = { s with port := { s.port with transaction := if b = 240 then .fetch 0 else .command [b] } }) ∧
      (∀ bs, s.port.transaction = .command bs → s.clockByte b = { s with port := { s.port with transaction := .command (bs ++ [b]) } }) ∧
      ∀ n, s.port.transaction = .fetch n → s.clockByte b = { s with port := { s.port with transaction := .fetch (n + 1) } }) ∧
    s.csRise = { s with
      port := { s.port with csLow := false, transaction := .idle }
      pending := s.pending ++ (match s.port.transaction with
        | .command bs => (decodeTransaction bs).toList
        | .fetch n => [.fetchTransaction n]
        | .idle | .opening => []) } ∧
    (s.port.csLow = false → s.port.transaction = .idle → ∀ bytes : List Byte,
      (bytes.foldl State.clockByte s.csFall).csRise =
        { s with pending := if s.resetLow then s.pending else s.pending ++ (decodeTransaction bytes).toList }) ∧
    ((s.resetLow = true ∨ s.port.csLow = false) → s.misoByte = none) ∧
    (s.resetLow = false → s.port.csLow = true →
      ((∀ n, s.port.transaction ≠ .fetch n) → s.misoByte = some 0) ∧
      ∀ n, s.port.transaction = .fetch n →
        (s.port.buffer = none → s.misoByte = some (if n = 0 then 1 else 0)) ∧
        ∀ r, s.port.buffer = some r →
          s.misoByte = some (if n = 0 then BitVec.ofNat 8 r.code.number else if n = 1 then BitVec.ofNat 8 r.body.length
            else r.body[n - 2]?.getD 0))) ∧
  ∀ s : State, s.resetLow = false →
    (∀ (reason : RejectReason) (code : Option Byte),
      exec (.commandFrameRejected reason code) s = .next { s with
        port := { s.port with buffer := some ⟨.badCommand,
          reasonItem reason ++ (match code with | none => [0] | some c => [1, c])⟩ } }) ∧
    (∀ n : Nat,
      ∃ t, exec (.fetchTransaction n) s = .next t ∧ t = { s with port := { s.port with buffer := t.port.buffer, miso := t.port.miso } } ∧
        t.port.miso.length = n ∧
        (s.port.buffer = none → t.port.buffer = none ∧ ∀ k < n, t.port.miso[k]? = some (if k = 0 then 1 else 0)) ∧
        ∀ r, s.port.buffer = some r →
          (t.port.buffer = if r.body.length + 2 ≤ n then none else some r) ∧
          ∀ k < n, t.port.miso[k]? = some
            (if k = 0 then BitVec.ofNat 8 r.code.number else if k = 1 then BitVec.ofNat 8 r.body.length else r.body[k - 2]?.getD 0))

/-- The framing check of a command transaction, in the order of R169, and what a transaction without a complete byte or with the fetch
code spells (R167): no command, or a fetch of the bytes after the code. Every command a transaction spells is one a frame can spell:
choice lists of at most 8, AMEND lists of at most 15, COMMIT lists of at most 4, mask lists of 1 to 9, and rejections whose reason fits
their code (R187, R188). -/
def Obligations.FramingCheckInOrder : Prop :=
  decodeTransaction [] = none ∧ (∀ (bytes : List Byte) (c : Instr), decodeTransaction bytes = some c → c.wf = true) ∧
  (∀ rest : List Byte, decodeTransaction (240 :: rest) = some (.fetchTransaction rest.length)) ∧
  (∀ code : Byte, code ≠ 240 → decodeTransaction [code] = some (.commandFrameRejected .shortFrame none)) ∧
  (∀ (code length : Byte) (body : List Byte), code ≠ 240 →
    ((code.toNat = 0 ∨ 22 < code.toNat) →
      decodeTransaction (code :: length :: body) = some (.commandFrameRejected .unknownCode (some code))) ∧
    (1 ≤ code.toNat → code.toNat ≤ 22 →
      (251 ≤ length.toNat → decodeTransaction (code :: length :: body) = some (.commandFrameRejected .lengthOutOfRange (some code))) ∧
      (length.toNat ≤ 250 →
        (body.length < length.toNat →
          decodeTransaction (code :: length :: body) = some (.commandFrameRejected .bodyShort (some code))) ∧
        (length.toNat < body.length →
          decodeTransaction (code :: length :: body) = some (.commandFrameRejected .bodyLong (some code))) ∧
        (length.toNat = body.length → ∃ c, decodeTransaction (code :: length :: body) = some c ∧
          (isCommand c = true ∨ c = .commandFrameRejected .lengthMismatch (some code))))))

/-! ### Packets of the picture input protocol -/

/-- FRAME_START on an input without an open frame, steps 2 to 8 of R54 with the slot of R75 or the drop of R76: the frame number, the
times, the tag, the measured period while LOCKED, the open frame with its period verdict, the lowest FREE slot filled, the timer, and an
ABSENT monitor made ACQUIRING. With an open frame it first ends that frame early (R59). -/
def Obligations.FrameStartOpensAFrame : Prop :=
  ∀ (s : State) (i : InputId) (tag : Half), s.resetLow = false →
    (∀ f, (s.input i).openFrame = some f → exec (.frameStart i tag) s = exec (.frameStart i tag) (s.endFrame i f false)) ∧
    ((s.input i).openFrame = none → ∀ c d slot, c = s.input i → d = c.previousStart.map (fun p => (s.timeBase - p).toNat) →
      slot = allSlots.find? (fun k => (c.slots.get k).state = .free) →
      ∃ t, exec (.frameStart i tag) s = .next t ∧
        t.input i = { c with
          frameNumber := if c.frameNumber = 0 ∨ 65535 ≤ c.frameNumber then 1 else c.frameNumber + 1
          measuredPeriod := if c.monitor = .locked ∧ d ≠ none then d else c.measuredPeriod
          timestamp := s.timeBase, previousStart := some s.timeBase, senderTag := tag
          openFrame := some ⟨slot, [], false,
            (match d with
              | none => .notChecked
              | some n => if c.config.period - c.config.tolerance ≤ n ∧ n ≤ c.config.period + c.config.tolerance then .met else .missed)⟩
          timer := some (s.timeBase + BitVec.ofNat 32 (3 * c.config.period / 2))
          monitor := if c.monitor = .absent then .acquiring else c.monitor
          goodRun := if c.monitor = .absent then 0 else c.goodRun, badRun := if c.monitor = .absent then 0 else c.badRun
          dropped := if slot = none then min 65535 (c.dropped + 1) else c.dropped
          slots := (t.input i).slots } ∧
        (∀ k, (t.input i).slots.get k =
          if slot = some k then
            { c.slots.get k with
                state := .filling, frameNumber := (t.input i).frameNumber, geometry := some (c.config.width, c.config.height), lines := [] }
          else c.slots.get k) ∧
        (NoticeLaw s → noticeCount t (.drop i) = countAfter s (.drop i) (slot = none)) ∧
        (∀ j, j ≠ i → t.input j = s.input j) ∧
        t = { s with inputs := t.inputs, domains := t.domains, notices := t.notices })

/-- A FRAME_START of a domain's lock input, on an input without an open frame (R93, R96, R97): with the input LOCKED the domain becomes
or stays LOCKED, its next frame start is the FRAME_START's time plus the lock delay and its held period the measured interval clamped to
8,333–40,000 µs; with the input not LOCKED, in FREE mode, or locked to another input, the domain is not touched. -/
def Obligations.LockInputSchedulesTheDomain : Prop :=
  ∀ (s t : State) (i : InputId) (tag : Half) (d : Domain), s.resetLow = false → (s.input i).openFrame = none →
    exec (.frameStart i tag) s = .next t →
    (∀ delay p, (s.domain d).settings.mode = .lock i delay → (s.input i).monitor = .locked → (s.input i).previousStart = some p →
      t.domain d = { s.domain d with
        mode := .locked, nextStart := s.timeBase + BitVec.ofNat 32 delay
        heldPeriod := some (max 8333 (min 40000 (s.timeBase - p).toNat)) }) ∧
    (((∀ delay, (s.domain d).settings.mode ≠ .lock i delay) ∨ (s.input i).monitor ≠ .locked) → t.domain d = s.domain d)

/-- A damaged packet, and a LINE or a FRAME_END without an open frame, is as if it had never been sent (R53). LINE with a frame open
(R56, R77, R111; a pixel field of whole pixels or a ragged one, and channels of ten bits of which depth 8 counts eight, are log entry
14): a line at or beyond the height, of a wrong length or already received is discarded and sets damage; any other joins lines received,
and its pixels, expanded to 10 bits, are what a read of that line of the open frame's slot then gives, while every other line and every
other slot reads as before. -/
def Obligations.LineIsStoredOrDiscarded : Prop :=
  ∀ (s : State) (i : InputId) (index : Half) (field : PixelField), exec (.discardedPacket i) s = .next s ∧
    ((s.input i).openFrame = none → exec (.line i index field) s = .next s ∧ exec (.frameEnd i) s = .next s) ∧
    ∀ f : OpenFrame, s.resetLow = false → (s.input i).openFrame = some f →
    (((s.input i).config.height ≤ index.toNat ∨ field = .ragged ∨ (∃ px, field = .whole px ∧ px.length ≠ (s.input i).config.width) ∨
        index.toNat ∈ f.lines) →
      exec (.line i index field) s = .next { s with
        inputs := s.inputs.set i { s.input i with openFrame := some { f with damage := true } } }) ∧
    (∀ px, field = .whole px → index.toNat < (s.input i).config.height → px.length = (s.input i).config.width → index.toNat ∉ f.lines →
      LineLaw s →
      ∃ t l, exec (.line i index field) s = .next t ∧
        t = { s with inputs := s.inputs.set i { s.input i with
                openFrame := some { f with lines := l }, slots := (t.input i).slots } } ∧
        (∀ n, n ∈ l ↔ n = index.toNat ∨ n ∈ f.lines) ∧
        (∀ k column line, ((t.input i).slots.get k).read column line =
          if f.slot = some k ∧ line = index.toNat then
            px[column]?.map fun q => ⟨expandChannel (s.input i).config.depth q.r, expandChannel (s.input i).config.depth q.g,
              expandChannel (s.input i).config.depth q.b⟩
          else ((s.input i).slots.get k).read column line) ∧
        (∀ k, (t.input i).slots.get k = { (s.input i).slots.get k with lines := ((t.input i).slots.get k).lines }) ∧
        ∀ k, f.slot ≠ some k → (t.input i).slots.get k = (s.input i).slots.get k)

/-- The monitor's table: one good or one bad frame in each state, and the bad frames total (R63, R66). -/
def Obligations.MonitorCountsGoodAndBadFrames : Prop :=
  ∀ (s : State) (i : InputId) (c g b : InputContext), c = s.input i → g = (s.judge i true).input i → b = (s.judge i false).input i →
    g = { c with monitor := g.monitor, goodRun := g.goodRun, badRun := g.badRun } ∧
    b = { c with monitor := b.monitor, goodRun := b.goodRun, badRun := b.badRun, badFrames := min 65535 (c.badFrames + 1) } ∧
    (c.monitor = .acquiring →
      ((g.monitor, g.goodRun, g.badRun) =
        if c.config.lockCount ≤ c.goodRun + 1 then (.locked, 0, 0) else (.acquiring, c.goodRun + 1, c.badRun)) ∧
      (b.monitor, b.goodRun, b.badRun) = (.acquiring, 0, c.badRun)) ∧
    (c.monitor = .locked →
      (g.monitor, g.goodRun, g.badRun) = (.locked, c.goodRun, 0) ∧
      ((b.monitor, b.goodRun, b.badRun) =
        if c.config.lossCount ≤ c.badRun + 1 then (.lost, 0, 0) else (.locked, c.goodRun, c.badRun + 1))) ∧
    (c.monitor = .lost →
      ((g.monitor, g.goodRun, g.badRun) = if c.config.lockCount ≤ 1 then (.locked, 0, 0) else (.acquiring, 1, c.badRun)) ∧
      (b.monitor, b.goodRun, b.badRun) = (.lost, c.goodRun, c.badRun))

/-- FRAME_END with a frame open: the frame is good exactly when every line arrived, nothing set damage and the period window was not
missed; that judgement reaches the monitor; the frame's slot becomes READY and latest, the slot latest before loses the mark and is freed
without holders; the open frame is discarded. Timer, frame number and times stay (R57, R58, R78, R79). -/
def Obligations.FrameEndJudgesAndPublishes : Prop :=
  ∀ (s : State) (i : InputId) (f : OpenFrame), s.resetLow = false → (s.input i).openFrame = some f → LineLaw s → SlotLaw s →
    ∃ t good, exec (.frameEnd i) s = .next t ∧
      (good = true ↔ (∀ n < (s.input i).config.height, n ∈ f.lines) ∧ f.damage = false ∧ f.verdict ≠ .missed) ∧
      t.input i = { (s.judge i good).input i with openFrame := none, slots := (t.input i).slots } ∧
      (∀ k, (t.input i).slots.get k =
        if f.slot = none then (s.input i).slots.get k
        else if f.slot = some k then { (s.input i).slots.get k with state := .ready, latest := true }
        else if ((s.input i).slots.get k).latest = true then
          (if ((s.input i).slots.get k).holders = 0 then .empty else { (s.input i).slots.get k with latest := false })
        else (s.input i).slots.get k) ∧
      (∀ j, j ≠ i → t.input j = s.input j) ∧ t = { s with inputs := t.inputs, domains := t.domains, notices := t.notices }

/-- MISSING_FRAME_EXPIRY when it is due counts one bad frame, the early-ended open frame's own when one is open, and sets the next expiry
P later; frame number and times stay, and no slot is touched but by the publication of a frame ended early (R59, R60, R61). One that is
not due does not happen (log entry 4). -/
def Obligations.ExpiryCountsOneBadFrame : Prop :=
  ∀ (s : State) (i : InputId), s.resetLow = false →
    ((s.input i).timer ≠ some s.timeBase → exec (.missingFrameExpiry i) s = .next s) ∧
    ((s.input i).timer = some s.timeBase →
      ∃ t, exec (.missingFrameExpiry i) s = .next t ∧
        t.input i = { (s.judge i false).input i with
          openFrame := none, timer := some (s.timeBase + BitVec.ofNat 32 (s.input i).config.period), slots := (t.input i).slots } ∧
        (t.input i).badFrames = min 65535 ((s.input i).badFrames + 1) ∧
        ((s.input i).openFrame.bind OpenFrame.slot = none → (t.input i).slots = (s.input i).slots) ∧
        (∀ k, (s.input i).openFrame.bind OpenFrame.slot = some k →
          ((t.input i).slots.get k).state = .ready ∧ ((t.input i).slots.get k).latest = true) ∧
        (∀ j, j ≠ i → t.input j = s.input j) ∧ t = { s with inputs := t.inputs, domains := t.domains, notices := t.notices })

/-! ### Domain frame starts -/

/-- DOMAIN_FRAME_START when it is due, on the domain's own context (R90, R91, R100, R102, R103): pending settings take effect with the
mode state and held period they leave; the frame number advances; the interval is judged from the two links' summaries; and the next
frame start is one running period later, by the mode state. One that is not due does not happen (log entry 4). -/
def Obligations.DomainFrameStartAdvancesTheDomain : Prop :=
  ∀ (s : State) (d : Domain), s.resetLow = false →
    ((s.domain d).nextStart ≠ s.timeBase → exec (.domainFrameStart d) s = .next s) ∧
    ((s.domain d).nextStart = s.timeBase → ∀ c x y, c = s.domain d → x = (s.link (domainScreens d).1).summary →
      y = (s.link (domainScreens d).2).summary →
      ∃ t, exec (.domainFrameStart d) s = .next t ∧
        (t.domain d).pendingSettings = none ∧ (t.domain d).settings = c.pendingSettings.getD c.settings ∧
        (c.pendingSettings = none → (t.domain d).mode = c.mode ∧ (t.domain d).heldPeriod = c.heldPeriod) ∧
        (∀ q, c.pendingSettings = some q →
          (q.mode = .free → (t.domain d).mode = .free ∧ (t.domain d).heldPeriod = c.heldPeriod) ∧
          ∀ i delay, q.mode = .lock i delay →
            (t.domain d).mode = (if (s.input i).monitor = .locked then .locked else .holdover) ∧
            (t.domain d).heldPeriod = if c.settings.locksTo i = true then c.heldPeriod else none) ∧
        (t.domain d).frameNumber = (if c.frameNumber = 0 ∨ 65535 ≤ c.frameNumber then 1 else c.frameNumber + 1) ∧
        (t.domain d).lastStart = s.timeBase ∧
        ((t.domain d).mode = .free → (t.domain d).runningPeriod = (t.domain d).settings.freePeriod) ∧
        (∀ i delay, (t.domain d).mode = .locked → (t.domain d).settings.mode = .lock i delay →
          (t.domain d).runningPeriod = (s.input i).config.period + (s.input i).config.tolerance) ∧
        ((t.domain d).mode = .holdover →
          (t.domain d).runningPeriod = (t.domain d).heldPeriod.getD (t.domain d).settings.freePeriod) ∧
        (t.domain d).nextStart = s.timeBase + BitVec.ofNat 32 (t.domain d).runningPeriod ∧
        (t.domain d).summaries = some (x, y) ∧ (t.domain d).verdict = some (intervalVerdict x y) ∧
        ((t.domain d).sync, (t.domain d).agreeingRun) = nextSync c.sync c.agreeingRun x y)

/-- The verdict on an interval and the sync state it leaves (R102, R103): with fewer than two UP screens the domain is UNSYNCED; UNSYNCED
becomes SYNCED by an agreeing interval, SYNCED becomes SYNC_LOST by a disagreeing one alone, and SYNC_LOST becomes SYNCED after three
agreeing intervals in a row and not before. -/
def Obligations.SyncNeedsThreeAgreeingIntervals : Prop :=
  ∀ (p q : Summary),
    (intervalVerdict p q = .agree ↔ p.up = true ∧ q.up = true ∧ ∃ n, p.presented = some n ∧ q.presented = some n) ∧
    (intervalVerdict p q = .disagree ↔ p.up = true ∧ q.up = true ∧ ∃ m n, p.presented = some m ∧ q.presented = some n ∧ m ≠ n) ∧
    (∀ sync run, ¬ (p.up = true ∧ q.up = true) → (nextSync sync run p q).1 = .unsynced) ∧
    (p.up = true → q.up = true →
      (∀ run, (nextSync .unsynced run p q).1 = (if intervalVerdict p q = .agree then .synced else .unsynced)) ∧
      (∀ run, (nextSync .synced run p q).1 = (if intervalVerdict p q = .disagree then .syncLost else .synced)) ∧
      (∀ l : List (Summary × Summary), (∀ e ∈ l, e.1.up = true ∧ e.2.up = true) →
        ((l.foldl (fun a e => nextSync a.1 a.2 e.1 e.2) (nextSync .synced 0 p q)).1 = .synced ↔
          intervalVerdict p q ≠ .disagree ∧ (∀ e ∈ l, intervalVerdict e.1 e.2 ≠ .disagree) ∨
          ∃ l₁ l₂ a b c, l = l₁ ++ a :: b :: c :: l₂ ∧ intervalVerdict a.1 a.2 = .agree ∧ intervalVerdict b.1 b.2 = .agree ∧
            intervalVerdict c.1 c.2 = .agree ∧ ∀ e ∈ l₂, intervalVerdict e.1 e.2 ≠ .disagree)))

/-- A due frame start of one domain touches nothing of the other: its context, its links and composers, the records of its screens; and
of the inputs nothing but the holder counts of their slots and the slots freed by the last release (R39, R80, R81, introductions of
Chapters 5 and 8). -/
def Obligations.FrameStartStaysInItsDomain : Prop :=
  ∀ (s t : State) (d : Domain), exec (.domainFrameStart d) s = .next t →
    (∀ e, e ≠ d → t.domain e = s.domain e) ∧
    (∀ sc, screenDomain sc ≠ d → t.link sc = s.link sc ∧ t.composer sc = s.composer sc) ∧
    (∀ h, (∀ p, s.placement h = some p → screenDomain p.screen ≠ d) → t.record h = s.record h) ∧
    (∀ i, t.input i = { s.input i with slots := (t.input i).slots }) ∧
    (∀ r, t.slot r = .empty ∨ t.slot r = { s.slot r with holders := (t.slot r).holders }) ∧
    t = { s with table := t.table, inputs := t.inputs, domains := t.domains, composers := t.composers, links := t.links,
                 notices := t.notices }

/-- TRAINING_WINDOW_EXPIRY and LINK_RESET_END are the domain frame start at which the link's window runs out, which leaves it HALTED with
window count 32, and the one at which its reset ends, which leaves it TRAINING; in any other case, at a frame start that is not due and
at a due one where the window does not run out or the reset does not end, they have no effect (R153, R161, log entry 5). -/
def Obligations.WindowAndResetEndAtAFrameStart : Prop :=
  ∀ (s : State) (sc : Screen), s.resetLow = false →
    ((s.domain (screenDomain sc)).nextStart = s.timeBase → ((s.link sc).state = .training ∨ (s.link sc).state = .recovering) →
      31 ≤ (s.link sc).windowCount → ¬ ((s.link sc).interval.trainedSeen = true ∧ 2 ≤ (s.link sc).trainedRun) →
      ∃ t, exec (.trainingWindowExpiry sc) s = .next t ∧ exec (.domainFrameStart (screenDomain sc)) s = .next t ∧
        (t.link sc).state = .halted ∧ (t.link sc).windowCount = (s.link sc).windowCount + 1) ∧
    ((s.domain (screenDomain sc)).nextStart = s.timeBase → (s.link sc).state = .resetting → (s.link sc).resetCount = some 1 →
      ∃ t, exec (.linkResetEnd sc) s = .next t ∧ exec (.domainFrameStart (screenDomain sc)) s = .next t ∧
        (t.link sc).state = .training ∧ (t.link sc).windowCount = 0) ∧
    (((s.domain (screenDomain sc)).nextStart ≠ s.timeBase ∨
        ((s.link sc).state ≠ .training ∧ (s.link sc).state ≠ .recovering) ∨ (s.link sc).windowCount < 31 ∨
        ((s.link sc).interval.trainedSeen = true ∧ 2 ≤ (s.link sc).trainedRun)) →
      exec (.trainingWindowExpiry sc) s = .next s) ∧
    (((s.domain (screenDomain sc)).nextStart ≠ s.timeBase ∨ (s.link sc).state ≠ .resetting ∨ (s.link sc).resetCount ≠ some 1) →
      exec (.linkResetEnd sc) s = .next s)

/-! ### Application, choices and views -/

/-- Application puts into the committed images and the live list exactly the would-be live set that the passing COMMIT on the screen
checked, in the drawing order it predicted (R28, R43, R45). Each armed record of the screen takes its staged image and is no longer
armed, and with its source changes it loses its latch, age and last source frame number (R40); a NEW one becomes LIVE since the frame
that begins (R41); one with its retirement staged becomes FREE with its generation kept and its view entries withdrawn (R42); the live
list is numbered from the bottom (R43); and the screen's last applied frame number is set and APPLIED raised once (R44). Without an armed
record nothing changes. Application is step 1 of the composers' work, which a due domain frame start hands its new frame number after its
own and before the links' (R39, R90). -/
def Obligations.ApplicationGivesTheCheckedSet : Prop :=
  (∀ (s u : State) (sc : Screen) (frame : Nat), u = s.applyArmed sc frame →
    ((∀ h p, s.placement h = some p → p.screen = sc → p.armed = false) → u = s) ∧
    (HolderLaw s → NewLaw s → HolderLaw u) ∧
    (ImageLaw s → JoinLaw s → ∀ (n : Nat) h, (u.liveList sc)[n]? = some h → (u.placement h).bind Placement.joinPosition = some n) ∧
    (∀ h, s.placement h = none → u.record h = s.record h) ∧
    ∀ h p, s.placement h = some p →
      (p.screen ≠ sc → u.record h = s.record h) ∧
      (p.screen = sc → p.armed = false → ∃ j, u.record h = ⟨(s.record h).generation, some { p with joinPosition := j }⟩) ∧
      (p.screen = sc → p.armed = true →
        (u.composer sc).lastApplied = frame ∧
        (NoticeLaw s → noticeCount u (.applied sc) = countAfter s (.applied sc) True) ∧
        (p.retireStaged = true →
          u.record h = ⟨(s.record h).generation, none⟩ ∧ noticeCount u (.view h) = 0 ∧ noticeCount u (.safetyView h) = 0) ∧
        (p.retireStaged = false → p.committed = none →
          ∃ j, u.record h = ⟨(s.record h).generation, some { p with
            committed := some p.staged, armed := false, liveSince := some frame, view := none, latched := none, age := 0
            lastFrame := 0, joinPosition := j }⟩) ∧
        ∀ m, p.retireStaged = false → p.committed = some m →
          ∃ j, u.record h = ⟨(s.record h).generation, some { p with
            committed := some p.staged, armed := false, joinPosition := j
            latched := if m.source = p.staged.source then p.latched else none
            age := if m.source = p.staged.source then p.age else 0
            lastFrame := if m.source = p.staged.source then p.lastFrame else 0 }⟩)) ∧
  (∀ (s v : State) (d : Domain) (frame : Nat), s.resetLow = false → (s.domain d).nextStart = s.timeBase → v = s.domainWork d →
    frame = (v.domain d).frameNumber →
    exec (.domainFrameStart d) s = .next ((((v.composerStart (domainScreens d).1 frame).composerStart (domainScreens d).2 frame).linkStart
      (domainScreens d).1 frame).linkStart (domainScreens d).2 frame) ∧
    ∀ sc, v.composerStart sc frame =
      (((((v.applyArmed sc frame).takeChoice sc).takeFreezes sc).takeTone sc).decideViews sc).beginComposition sc frame) ∧
  ∀ (s t : State) (l : List Byte) (named : List Screen) (sc : Screen) (frame : Nat), s.resetLow = false → ImageLaw s → JoinLaw s →
    readAll screenOf l = some named → named.Nodup → sc ∈ named → (∀ x ∈ named, s.admissionFault x = none) →
    exec (.commit (some l)) s = .next t →
    (drawnSet (t.applyArmed sc frame) sc).map (fun c => (c.handle, c.image)) = (s.wouldBe sc).map fun c => (c.handle, c.image)

/-- Between frame starts nothing that is shown changes: a LIVE record's committed image, view, latch, age, numbers and place in the live
list stay, whatever command, packet or return is taken (R40, R141), and an armed record keeps its staged image and stays armed (R36,
R37). -/
def Obligations.BetweenFrameStartsNothingShownChanges : Prop :=
  ∀ (c : Instr) (s t : State), isFrameStart c = false → c ≠ .resetnAssert → c ≠ .resetnRelease → exec c s = .next t →
    ∀ h p, s.placement h = some p → (p.committed ≠ none ∨ p.armed = true) →
      ∃ q, t.placement h = some q ∧
        q = { p with staged := q.staged, armed := q.armed, retireStaged := q.retireStaged, freezeRequest := q.freezeRequest } ∧
        (p.armed = true → q = { p with freezeRequest := q.freezeRequest })

/-- A generation advances by one exactly when OPEN takes the record, when AMEND succeeds, when RETIRE is taken on the LIVE record and
when a reachable passenger choice is applied to it, and stays otherwise, but for the release of RESETn (R2). Step 2 of a frame start on
S2 and S3 takes the pending choice, which is pending no more. A reachable one writes the entry of the committed choice list as the
committed source, and as the staged source where the staged list holds it; with a change of source it releases the latch and clears age
and last source frame number; it advances the generation and raises PASSENGER_CHOICE, and touches no other field (R46, R47, R49). One
that is not reachable counts as a bad choice and changes nothing else (R46, R150). -/
def Obligations.GenerationsAdvanceOnTheirEvents : Prop :=
  (∀ (c : Instr) (s t : State) (h : Handle), c ≠ .resetnRelease → exec c s = .next t →
    ∀ advance : Prop,
      (advance ↔
        (∃ a b d m, c = .openPlacement a b d m ∧ s.placement h = none ∧ t.placement h ≠ none) ∨
        (s.resetLow = false ∧ ∃ b g u es, c = .amend b g u es ∧ handleOf b = some h ∧ t.port.buffer.map Response.code = some .ok) ∨
        (s.resetLow = false ∧ ∃ b g u p, c = .retire b g u ∧ handleOf b = some h ∧ s.placement h = some p ∧ p.committed ≠ none ∧
          t.port.buffer.map Response.code = some .ok) ∨
        (∃ sc k m, isRearScreen sc = true ∧ (s.link sc).pendingChoice = some k ∧ (t.link sc).pendingChoice = none ∧
          t.liveSelectable sc = some h ∧ (t.placement h).bind Placement.committed = some m ∧ k < (m.choices.getD []).length)) →
      (advance → (t.record h).generation = (s.record h).generation + 1) ∧
      (¬ advance → (t.record h).generation = (s.record h).generation)) ∧
  ∀ (s u : State) (sc : Screen), u = s.takeChoice sc →
    ((isRearScreen sc = false ∨ (s.link sc).pendingChoice = none) → u = s) ∧
    ∀ k, isRearScreen sc = true → (s.link sc).pendingChoice = some k →
      ((∀ h p (m : Image), s.liveSelectable sc = some h → s.placement h = some p → p.committed = some m → (m.choices.getD []).length ≤ k) →
        u = { s with links := s.links.set sc { s.link sc with
          pendingChoice := none, badChoices := min 65535 ((s.link sc).badChoices + 1) } }) ∧
      ∀ h p m i, s.liveSelectable sc = some h → s.placement h = some p → p.committed = some m → (m.choices.getD [])[k]? = some i →
        u.record h = ⟨(s.record h).generation + 1, some { p with
          committed := some { m with source := .input i }
          staged := if i ∈ p.staged.choices.getD [] then { p.staged with source := .input i } else p.staged
          latched := if m.source = .input i then p.latched else none
          age := if m.source = .input i then p.age else 0
          lastFrame := if m.source = .input i then p.lastFrame else 0 }⟩ ∧
        (∀ x, x ≠ h → u.record x = s.record x) ∧
        (∀ r, u.slot r =
          if m.source ≠ .input i ∧ p.latched = some r then
            (if (s.slot r).holders ≤ 1 ∧ (s.slot r).latest = false then .empty
             else { s.slot r with holders := (s.slot r).holders - 1 })
          else s.slot r) ∧
        (∀ j, u.input j = { s.input j with slots := (u.input j).slots }) ∧
        (NoticeLaw s → noticeCount u (.passengerChoice sc) = countAfter s (.passengerChoice sc) True) ∧
        u = { s with
          table := u.table, inputs := u.inputs, notices := u.notices
          links := s.links.set sc { s.link sc with pendingChoice := none } }

/-- A change of view at a frame start raises one occurrence for the record, VIEW or SAFETY_VIEW by its class; keeping the view raises
none, nor does the first view of a record that joins; a record that becomes FREE has its entries withdrawn (R139, R181). The view, the
slot held, the age and the last source frame number are those of the view decision: the frozen branch, the solid branch, and the input
branch with the freshness of R128 and R129, the starved condition of R130 and the substitute of each policy (R126 to R134, R136, R137).
Each LIVE record of the screen is decided so, none other is touched, and no decision depends on another. -/
def Obligations.ViewChangesAreNoticed : Prop :=
  (∀ (s : State) (sc : Screen) (h : Handle),
    ((∀ p, s.placement h = some p → p.screen ≠ sc ∨ p.committed = none) → (s.decideViews sc).record h = s.record h) ∧
    ∀ p m, s.placement h = some p → p.screen = sc → p.committed = some m →
      ∀ fit : InputId → Option SlotRef,
        (∀ i r, fit i = some r ↔ (s.input i).monitor = .locked ∧ r.input = i ∧ (s.slot r).latest = true) →
        ∃ v slot age last,
          (s.decideViews sc).record h =
            { s.record h with body := some { p with view := some v, latched := slot, age := age, lastFrame := last } } ∧
          (p.frozen = true → v = (if p.latched = none then .filled else .frozen) ∧ slot = p.latched ∧ age = p.age ∧ last = p.lastFrame) ∧
          (p.frozen = false → m.source = .solid → v = .showing ∧ slot = none ∧ age = p.age ∧ last = p.lastFrame) ∧
          ∀ i, p.frozen = false → m.source = .input i →
            (∀ r, fit i = some r → (s.slot r).frameNumber ≠ p.lastFrame → age = 0 ∧ last = (s.slot r).frameNumber) ∧
            ((fit i = none ∨ ∃ r, fit i = some r ∧ (s.slot r).frameNumber = p.lastFrame) →
              age = min 255 (p.age + 1) ∧ last = p.lastFrame) ∧
            (∀ r, fit i = some r → (m.holdLimit = 0 ∨ age < m.holdLimit) → v = .showing ∧ slot = some r) ∧
            ((fit i = none ∨ (m.holdLimit ≠ 0 ∧ m.holdLimit ≤ age)) → ∀ held, held = (fit i).or p.latched →
              (m.policy = .hold →
                (∀ r, held = some r → r.input = i → v = .holding ∧ slot = some r) ∧
                ((∀ r, held = some r → r.input ≠ i) → v = .filled ∧ slot = none)) ∧
              (m.policy = .fill → v = .filled ∧ slot = none) ∧
              (m.policy = .alternate →
                (∀ j r, m.alternate = some j → fit j = some r → v = .alternate ∧ slot = some r) ∧
                ((∀ j, m.alternate = some j → fit j = none) → v = .filled ∧ slot = none)) ∧
              (m.policy = .hide → v = .hidden ∧ slot = none))) ∧
  ∀ (s t : State) (d : Domain) (h : Handle) (p : Placement), NoticeLaw s → NewLaw s → exec (.domainFrameStart d) s = .next t →
    s.placement h = some p →
    ∀ key, key = (if p.cls = .safety then NoticeKey.safetyView h else NoticeKey.view h) →
      (∀ q, t.placement h = some q → noticeCount t key = countAfter s key (p.view ≠ none ∧ q.view ≠ p.view)) ∧
      (t.placement h = none → noticeCount t key = 0)

/-! ### Composition -/

/-- The arithmetic of one channel (R111, R121, R122, R123, R124): expansion copies the two highest bits of an 8-bit value below it; OVER
at opacity 256 gives the drawn value and at 0 the destination; ADD never lowers a channel, adds nothing at opacity 0 and the value at
256, and is held at 1023; unity gain changes nothing and gain 0 gives 0; depth 8 rounds to the nearest quarter and holds 255. -/
def Obligations.ChannelArithmeticIsExact : Prop :=
  (∀ c : BitVec 10, expandChannel 10 c = c.toNat ∧
    (c.toNat < 256 → expandChannel 8 c = c.toNat * 4 + c.toNat / 64 ∧ expandChannel 8 c ≤ 1023)) ∧
  (∀ a s d : Nat, a ≤ 256 → s ≤ 1023 → d ≤ 1023 →
    blendChannel .over a s d = (s * a + d * (256 - a) + 128) / 256 ∧ min s d ≤ blendChannel .over a s d ∧
    blendChannel .over a s d ≤ max s d ∧ blendChannel .over 256 s d = s ∧ blendChannel .over 0 s d = d ∧
    blendChannel .add a s d = min 1023 (d + (s * a + 128) / 256) ∧ d ≤ blendChannel .add a s d ∧ blendChannel .add a s d ≤ 1023 ∧
    blendChannel .add 0 s d = d ∧ blendChannel .add 256 s d = min 1023 (d + s)) ∧
  (∀ g c : Nat, c ≤ 1023 →
    gainChannel g c = min 1023 ((c * g + 512) / 1024) ∧ gainChannel 1024 c = c ∧ gainChannel 0 c = 0 ∧
    (g ≤ 1024 → gainChannel g c ≤ c) ∧ (1024 ≤ g → c ≤ gainChannel g c) ∧
    depthChannel 10 c = c ∧ depthChannel 8 c = min 255 ((c + 2) / 4) ∧ depthChannel 8 c ≤ 255)

/-- The key (R117, R118): each of NEQ, NLT, NLE and ORD is the opposite of one of EQ, LT, LE and UNORD, for void samples too; UNORD keys
out void samples alone and ORD all but them; SINGLE reads the green channel alone, and PACKED all three. -/
def Obligations.KeyPredicatesAreOpposites : Prop :=
  (∀ x ∈ [(Predicate.eq, Predicate.neq), (.lt, .nlt), (.le, .nle), (.unord, .ord)], ∀ s k : Nat,
    x.2.holds s k = !x.1.holds s k ∧ x.2.holdsVoid = !x.1.holdsVoid) ∧
  (∀ s k : Nat, (Predicate.eq.holds s k = true ↔ s = k) ∧ (Predicate.lt.holds s k = true ↔ s < k) ∧
    (Predicate.le.holds s k = true ↔ s ≤ k)) ∧
  (∀ (k : Key) (c : Colour),
    (k.span = .single → k.keysOut (some c) = k.predicate.holds c.g k.colour.g) ∧
    (k.span = .packed → (k.keysOut (some c) = true ↔
      k.predicate.holds c.r k.colour.r = true ∧ k.predicate.holds c.g k.colour.g = true ∧ k.predicate.holds c.b k.colour.b = true)) ∧
    (k.predicate = .unord → k.keysOut none = true ∧ k.keysOut (some c) = false) ∧
    (k.predicate = .ord → k.keysOut none = false ∧ k.keysOut (some c) = true) ∧
    (k.keysOut none = true ↔ k.predicate ∈ [Predicate.unord, .neq, .nlt, .nle]))

/-- The sample position (R112, R113, R114): the column index lies from −1 to the source size less one and the weight within 0–255; an
index of −1 arises only at an enlargement; a clamped index lies within the source; and at 1:1 the index is the target column with weight
0. At any source and target size the sample is the mix of its four neighbours, columns first and rounded half up at each step; any one of
the four that is void makes it void, whatever its weight (R115, R116). So a slot drawn at 1:1 is reproduced without change where the four
neighbours of a pixel are stored. A pixel starts as the background and takes the placements in drawing order: one whose rectangle does
not hold the pixel, one that samples nothing and one keyed out leave it, and any other blends its sample, or its fill colour for a void
sample, over it; gain and depth then give the value of the line (R110, R119, R120). -/
def Obligations.SamplesStayInTheSource : Prop :=
  (∀ (x size target : Nat), 1 ≤ size → x < target →
    samplePosition x size target = ((2 * x + 1) * size * 65536 / (2 * target) : Nat) - (32768 : Int) ∧
    -1 ≤ sampleIndex (samplePosition x size target) ∧ sampleIndex (samplePosition x size target) ≤ size - 1 ∧
    sampleWeight (samplePosition x size target) ≤ 255 ∧
    (sampleIndex (samplePosition x size target) = -1 → size < target) ∧
    (∀ i : Int, clampIndex i size < size ∧ (0 ≤ i → i < size → clampIndex i size = i) ∧ (i < 0 → clampIndex i size = 0) ∧
      ((size : Int) ≤ i → clampIndex i size = size - 1)) ∧
    (size = target → sampleIndex (samplePosition x size target) = x ∧ sampleWeight (samplePosition x size target) = 0)) ∧
  (∀ (z : Slot) (ox oy ws hs : Nat) (r : Rect) (x y : Nat) (i j : Int) (f g : Nat) (read : Int → Int → Option Colour),
    i = sampleIndex (samplePosition x ws r.w) → j = sampleIndex (samplePosition y hs r.h) →
    f = sampleWeight (samplePosition x ws r.w) → g = sampleWeight (samplePosition y hs r.h) →
    (∀ column line, read column line = z.read (ox + clampIndex column ws) (oy + clampIndex line hs)) →
    ((read i j = none ∨ read (i + 1) j = none ∨ read i (j + 1) = none ∨ read (i + 1) (j + 1) = none) →
      sampleSlot z ox oy ws hs r x y = none) ∧
    ∀ (p q u v : Colour) (row : Nat → Nat → Nat → Nat),
      read i j = some p → read (i + 1) j = some q → read i (j + 1) = some u → read (i + 1) (j + 1) = some v →
      (∀ a b w, row a b w = (a * (256 - w) + b * w + 128) / 256) →
      sampleSlot z ox oy ws hs r x y =
        some ⟨row (row p.r q.r f) (row u.r v.r f) g, row (row p.g q.g f) (row u.g v.g f) g, row (row p.b q.b f) (row u.b v.b f) g⟩) ∧
  (∀ (z : Slot) (ox oy x y : Nat) (r : Rect), x < r.w → y < r.h →
    ((∀ a ∈ [z.read (ox + x) (oy + y), z.read (ox + min (x + 1) (r.w - 1)) (oy + y), z.read (ox + x) (oy + min (y + 1) (r.h - 1)),
            z.read (ox + min (x + 1) (r.w - 1)) (oy + min (y + 1) (r.h - 1))], a ≠ none) →
      sampleSlot z ox oy r.w r.h r x y = z.read (ox + x) (oy + y)) ∧
    ((∃ a ∈ [z.read (ox + x) (oy + y), z.read (ox + min (x + 1) (r.w - 1)) (oy + y), z.read (ox + x) (oy + min (y + 1) (r.h - 1)),
            z.read (ox + min (x + 1) (r.w - 1)) (oy + min (y + 1) (r.h - 1))], a = none) →
      sampleSlot z ox oy r.w r.h r x y = none)) ∧
  ∀ (s : State) (background d : Colour) (draws : List DrawParams) (column line : Nat),
    d = composedPixel s background draws column line →
    composedPixel s background [] column line = background ∧
    (∀ (k : Composer) (m : Composition), k.background = background → m.draws = draws → m.nextLine = line → column < m.width →
      (composeLine s k m)[column]? = some ⟨depthChannel m.depth (gainChannel k.gain d.r), depthChannel m.depth (gainChannel k.gain d.g),
        depthChannel m.depth (gainChannel k.gain d.b)⟩) ∧
    ∀ p : DrawParams, ∀ held : Prop,
      (held ↔ (p.target.x ≤ column ∧ column < p.target.x + p.target.w) ∧ p.target.y ≤ line ∧ line < p.target.y + p.target.h) →
      ((¬ held ∨ p.sampling = .nothing) → composedPixel s background (draws ++ [p]) column line = d) ∧
      ∀ sample, held →
        ((p.sampling = .solid ∧ sample = some p.fill) ∨
          ∃ ref ox oy ws hs, p.sampling = .slot ref ox oy ws hs ∧
            sample = sampleSlot (s.slot ref) ox oy ws hs p.target (column - p.target.x) (line - p.target.y)) →
        ((∃ k, p.key = some k ∧ k.keysOut sample = true) → composedPixel s background (draws ++ [p]) column line = d) ∧
        ((∀ k, p.key = some k → k.keysOut sample = false) → ∀ v, v = sample.getD p.fill →
          composedPixel s background (draws ++ [p]) column line =
            ⟨blendChannel p.blend p.opacity v.r d.r, blendChannel p.blend p.opacity v.g d.g, blendChannel p.blend p.opacity v.b d.b⟩)

/-- Every value that is drawn stays within its range from step to step, and every composed channel value lies within 0–1023, and every
value sent to an 8-bit screen within 0–255 (R124). -/
def Obligations.ComposedChannelsStayInRange : Prop :=
  ∀ s : State, RangeLaw s →
    (∀ t, step s = .next t → RangeLaw t) ∧
    ∀ (sc : Screen) (m : Composition), (s.composer sc).composition = some m →
      (∀ column line, Colour.within (composedPixel s (s.composer sc).background m.draws column line) = true) ∧
      ∀ c ∈ composeLine s (s.composer sc) m, Colour.within c = true ∧ (m.depth = 8 → c.r ≤ 255 ∧ c.g ≤ 255 ∧ c.b ≤ 255)

/-- LINE_HANDOVER (R109, R145): the composer composes the next line and goes on to the one after, or ends the composition with the last;
a link that is UP with a frame in transmission sends it as a LINE unit, and a FRAME_TAIL with the count after the last; any other link
discards it. Without a frame in composition nothing is handed over. Nothing else changes. What is sent stands in the model's own record
`sent` (log entry 15). -/
def Obligations.LineHandoverSendsTheNextLine : Prop :=
  ∀ (s : State) (sc : Screen), s.resetLow = false →
    ((s.composer sc).composition = none → exec (.lineHandover sc) s = .next s) ∧
    ∀ m, (s.composer sc).composition = some m →
      ∃ t, exec (.lineHandover sc) s = .next t ∧
        t = { s with links := s.links.set sc (t.link sc),
                     composers := s.composers.set sc { s.composer sc with
                       composition := if m.nextLine + 1 < m.height then some { m with nextLine := m.nextLine + 1 } else none } } ∧
        (((s.link sc).state ≠ .up ∨ (s.link sc).transmission = none) → t.link sc = s.link sc) ∧
        ∀ x, (s.link sc).state = .up → (s.link sc).transmission = some x →
          t.link sc = { s.link sc with
            sent := (s.link sc).sent ++ (.line m.nextLine (composeLine s (s.composer sc) m) ::
              if m.nextLine + 1 < m.height then [] else [.frameTail (x.linesSent + 1)])
            transmission := if m.nextLine + 1 < m.height then some { x with linesSent := x.linesSent + 1 } else none }

/-- A composer composes and applies changes whatever its link does: what its frame start leaves in the table, the store, the composers,
the domains and the notices does not depend on the link's state, runs, records or counters, only on its screen configuration, stored tone
and pending choice (R38, R107). The frame a due frame start begins carries its frame number and the screen's geometry and depth, starts
at line 0, and holds for each LIVE placement in drawing order the drawing parameters of R108: the committed target, opacity, blend and
fill, and by its view the slot, origin and source size it samples and its key. -/
def Obligations.CompositionIgnoresTheLinkState : Prop :=
  (∀ (s t : State) (sc : Screen), s.resetLow = false → (s.domain (screenDomain sc)).nextStart = s.timeBase →
    exec (.domainFrameStart (screenDomain sc)) s = .next t →
    ∃ c, (t.composer sc).composition = some c ∧ c.frame = (t.domain (screenDomain sc)).frameNumber ∧
      (c.width, c.height, c.depth) = ((t.link sc).config.width, (t.link sc).config.height, (t.link sc).config.depth) ∧ c.nextLine = 0 ∧
      c.draws.length = (t.liveList sc).length ∧
      ∀ (n : Nat) h q m, (t.liveList sc)[n]? = some h → t.placement h = some q → q.committed = some m →
        q.view ≠ none ∧
        ∃ p : DrawParams, c.draws[n]? = some p ∧ p.handle = h ∧ p.target = m.target ∧ p.opacity = m.opacity ∧ p.blend = m.blend ∧
          p.fill = m.fill ∧
          (q.view = some .hidden → p.sampling = .nothing) ∧
          (q.view = some .filled → p.sampling = .solid ∧ p.key = none) ∧
          (q.view ≠ some .hidden → q.view ≠ some .filled → p.key = m.key) ∧
          (q.view = some .alternate → ∀ i r, m.alternate = some i → q.latched = some r →
            p.sampling = .slot r 0 0 (t.input i).config.width (t.input i).config.height) ∧
          ((q.view = some .showing ∨ q.view = some .holding ∨ q.view = some .frozen) →
            (m.source = .solid → p.sampling = .solid) ∧
            ∀ i r area, m.source = .input i → q.latched = some r →
              area = m.sourceRect.getD ⟨0, 0, (t.input i).config.width, (t.input i).config.height⟩ →
              p.sampling = .slot r area.x area.y area.w area.h)) ∧
  ∀ (s : State) (sc x : Screen) (frame : Nat) (l : LinkContext),
    l.config = (s.link x).config → l.tone = (s.link x).tone → l.pendingChoice = (s.link x).pendingChoice →
    ∀ u v, u = s.composerStart sc frame → v = { s with links := s.links.set x l }.composerStart sc frame →
      v.table = u.table ∧ v.inputs = u.inputs ∧ v.composers = u.composers ∧ v.notices = u.notices ∧ v.domains = u.domains

/-! ### Links -/

/-- STATUS_RETURN (R148, R149, R154, R157, R189): a return is sound when its check passed, it has six bytes, and its state, panel and
choice bytes hold their values; one that is damaged, and one that arrives in DOWN, HALTED or RESETTING, changes nothing. Any other
becomes the last return, with the choice that a front screen's link otherwise ignores (log entry 13), adds its errors, sets the pending
choice of a rear screen and enters the interval record; with panel FAULT it then halts a link that is TRAINING or RECOVERING and sends
one that is UP to RECOVERING, with one recovery counted and its frame abandoned. -/
def Obligations.StatusReturnIsTakenOrIgnored : Prop :=
  ∀ (s : State) (sc : Screen) (sound : Bool) (bytes : List Byte), s.resetLow = false →
    (∀ r, decodeReturn sound bytes = some r ↔ sound = true ∧ ∃ p0 p1 a b e c : Byte, bytes = [p0, p1, a, b, e, c] ∧
      r.presented = p0.toNat + 256 * p1.toNat ∧ ((a = 0 ∧ r.receiver = .training) ∨ (a = 1 ∧ r.receiver = .trained)) ∧
      ((b = 0 ∧ r.panel = .ok) ∨ (b = 1 ∧ r.panel = .fault)) ∧ r.errors = e.toNat ∧
      ((c.toNat ≤ 7 ∧ r.choice = some c.toNat) ∨ (c = 255 ∧ r.choice = none))) ∧
    ((decodeReturn sound bytes = none ∨ (s.link sc).state = .down ∨ (s.link sc).state = .halted ∨ (s.link sc).state = .resetting) →
      exec (.statusReturn sc sound bytes) s = .next s) ∧
    ∀ r, decodeReturn sound bytes = some r →
      ((s.link sc).state = .training ∨ (s.link sc).state = .up ∨ (s.link sc).state = .recovering) →
      ∃ t, exec (.statusReturn sc sound bytes) s = .next t ∧
        t = { s with links := s.links.set sc (t.link sc), notices := t.notices } ∧
        ∀ l, l = { s.link sc with
            lastReturn := some r
            errorTotal := min 4294967295 ((s.link sc).errorTotal + r.errors)
            pendingChoice := if isRearScreen sc = true ∧ r.choice ≠ none then r.choice else (s.link sc).pendingChoice
            interval := {
              returned := true
              trainedSeen := (s.link sc).interval.trainedSeen || decide (r.receiver = .trained)
              overThreshold := (s.link sc).interval.overThreshold ||
                decide ((s.link sc).config.threshold ≠ 0 ∧ (s.link sc).config.threshold < r.errors)
              presented := if (s.link sc).state = .up then some r.presented else (s.link sc).interval.presented } } →
          (r.panel = .ok → t.link sc = l) ∧
          (r.panel = .fault → (s.link sc).state ≠ .up → t.link sc = { l with state := .halted }) ∧
          (r.panel = .fault → (s.link sc).state = .up →
            t.link sc = { l with
              state := .recovering, trainedRun := 0, windowCount := 0, missingRun := 0, errorRun := 0
              interval := ⟨false, false, false, none⟩, transmission := none, recoveries := min 65535 (l.recoveries + 1) })

/-- A link's frame start (R151): it closes a frame in transmission with a FRAME_TAIL, judges the interval by its state, clears the
interval record, and begins sending what its new state gives: UP a FRAME_HEAD, counted in frames sent, TRAINING and RECOVERING a TRAINING
frame, any other nothing (R145, R146, R147; the record `sent` is log entry 15). Its summary is whether it is UP and the interval record's
presented frame number as it stands (R102, R151). In UP the missing run, the missing total, the error run and the recoveries follow R155
and R156; in TRAINING and RECOVERING three intervals in a row with a TRAINED return give UP, and the 32nd without gives HALTED (R153); in
RESETTING the reset count falls, and the reset ends in TRAINING (R161); in DOWN and HALTED nothing is judged. -/
def Obligations.LinkFrameStartJudgesTheInterval : Prop :=
  ∀ (l : LinkContext) (frame : Nat) (t : LinkContext), t = l.frameStart frame →
    l.summary = ⟨decide (l.state = .up), l.interval.presented⟩ ∧
    t.interval = ⟨false, false, false, none⟩ ∧
    (t.config, t.tone, t.lastReturn, t.pendingChoice, t.errorTotal, t.badChoices) =
      (l.config, l.tone, l.lastReturn, l.pendingChoice, l.errorTotal, l.badChoices) ∧
    (l.state ≠ .up → t.missingTotal = l.missingTotal ∧ t.recoveries = l.recoveries) ∧
    ((l.state = .training ∨ l.state = .recovering) → t.resetCount = l.resetCount ∧
      ((l.interval.trainedSeen = true ∧ 2 ≤ l.trainedRun) →
        t.state = .up ∧ t.trainedRun = 0 ∧ t.windowCount = 0 ∧ t.missingRun = 0 ∧ t.errorRun = 0) ∧
      (¬ (l.interval.trainedSeen = true ∧ 2 ≤ l.trainedRun) →
        t.trainedRun = (if l.interval.trainedSeen then l.trainedRun + 1 else 0) ∧ t.windowCount = l.windowCount + 1 ∧
        t.missingRun = l.missingRun ∧ t.errorRun = l.errorRun ∧ t.state = if 31 ≤ l.windowCount then .halted else l.state)) ∧
    (l.state = .resetting →
      (∀ n, l.resetCount = some n → 2 ≤ n → t.state = .resetting ∧ t.resetCount = some (n - 1) ∧ t.trainedRun = l.trainedRun ∧
        t.windowCount = l.windowCount ∧ t.missingRun = l.missingRun ∧ t.errorRun = l.errorRun) ∧
      (l.resetCount = some 1 → t.state = .training ∧ t.resetCount = none ∧ t.trainedRun = 0 ∧ t.windowCount = 0 ∧ t.missingRun = 0 ∧
        t.errorRun = 0)) ∧
    ((l.state = .down ∨ l.state = .halted) →
      t = { l with interval := ⟨false, false, false, none⟩, transmission := none, sent := t.sent }) ∧
    t.sent = l.sent ++ (match l.transmission with | some x => [.frameTail x.linesSent] | none => []) ++
      (match t.state with
        | .up => [.frameHead frame l.config.width l.config.height l.config.depth]
        | .training | .recovering => [.trainingFrame frame l.config.width l.config.height l.config.depth]
        | _ => []) ∧
    t.framesSent = (if t.state = .up then l.framesSent + 1 else l.framesSent) ∧
    t.transmission = (if t.state = .up then some ⟨frame, 0⟩ else none) ∧
    (l.state = .up →
      ((l.interval.returned = false ∧ 3 ≤ l.missingRun) ∨
        (l.config.threshold ≠ 0 ∧ l.interval.overThreshold = true ∧ 2 ≤ l.errorRun) →
        t.state = .recovering ∧ t.recoveries = min 65535 (l.recoveries + 1) ∧ t.missingRun = 0 ∧ t.errorRun = 0) ∧
      (¬ (l.interval.returned = false ∧ 3 ≤ l.missingRun) → l.missingRun ≤ 3 → l.errorRun ≤ 2 →
        ¬ (l.config.threshold ≠ 0 ∧ l.interval.overThreshold = true ∧ 2 ≤ l.errorRun) →
        t.state = .up ∧ t.recoveries = l.recoveries ∧ t.missingRun = (if l.interval.returned then 0 else l.missingRun + 1) ∧
        (l.config.threshold ≠ 0 → t.errorRun = if l.interval.overThreshold then l.errorRun + 1 else 0)) ∧
      t.missingTotal = if l.interval.returned then l.missingTotal else min 65535 (l.missingTotal + 1))

/-- Training ends: within 32 frame starts of its entry into TRAINING a link whose state nothing else changes has left it, for UP or for
HALTED, whatever its returns; it is UP no earlier than the third (R153). -/
def Obligations.TrainingEndsWithinItsWindow : Prop :=
  ∀ (l : LinkContext) (records : Nat → IntervalRecord) (frames : Nat → Nat) (run : Nat → LinkContext),
    l.state = .training → l.trainedRun = 0 → l.windowCount = 0 → run 0 = l →
    (∀ n, run (n + 1) = ({ run n with interval := records n }).frameStart (frames n)) →
    (∀ n, n < 3 → (run n).state = .training) ∧
    ∃ n, 3 ≤ n ∧ n ≤ 32 ∧ (∀ k, k < n → (run k).state = .training) ∧ ((run n).state = .up ∨ (run n).state = .halted) ∧
      ((run n).state = .halted → n = 32)

/-- The moves of a link's state are those of R152, each by its cause, but for the reset pin. So a link leaves HALTED only by RESET_LINK,
DISABLE_LINK or the reset pin (R158). -/
def Obligations.LinkStateMovesOnlyByItsTable : Prop :=
  ∀ (c : Instr) (s t : State) (sc : Screen), c ≠ .resetnAssert → c ≠ .resetnRelease → exec c s = .next t →
    ∀ a b, a = (s.link sc).state → b = (t.link sc).state →
      a = b ∨
      (a = .down ∧ b = .training ∧ ∃ x, c = .enableLink x ∧ screenOf x = some sc) ∨
      ((a = .training ∨ a = .recovering) ∧ (b = .up ∨ b = .halted) ∧ isFrameStart c = true) ∨
      ((a = .training ∨ a = .recovering) ∧ b = .halted ∧ ∃ bytes, c = .statusReturn sc true bytes) ∨
      (a = .up ∧ b = .recovering ∧ (isFrameStart c = true ∨ ∃ bytes, c = .statusReturn sc true bytes)) ∨
      (a ≠ .down ∧ a ≠ .resetting ∧ b = .resetting ∧ ∃ x, c = .resetLink x ∧ screenOf x = some sc) ∨
      (a = .resetting ∧ b = .training ∧ isFrameStart c = true) ∨
      (b = .down ∧ ∃ x, c = .disableLink x ∧ screenOf x = some sc)

/-! ### Notices, and what one event may touch -/

/-- Each change of a monitor state, sync state, mode state or link state raises one occurrence of its notice, and an event that leaves
the state as it was raises none; masks and RESETn apart (R64, R98, R104, R152, R177). -/
def Obligations.EveryStateChangeIsNoticed : Prop :=
  ∀ (c : Instr) (s t : State), c ≠ .takeNotice → (∀ l, c ≠ .maskNotices l) → c ≠ .resetnAssert → c ≠ .resetnRelease → NoticeLaw s →
    exec c s = .next t →
    t.notices.masks = s.notices.masks ∧
    (∀ i, noticeCount t (.sourceState i) = countAfter s (.sourceState i) ((t.input i).monitor ≠ (s.input i).monitor)) ∧
    (∀ d, noticeCount t (.syncState d) = countAfter s (.syncState d) ((t.domain d).sync ≠ (s.domain d).sync)) ∧
    (∀ d, noticeCount t (.domainMode d) = countAfter s (.domainMode d) ((t.domain d).mode ≠ (s.domain d).mode)) ∧
    (∀ sc, noticeCount t (.linkState sc) = countAfter s (.linkState sc) ((t.link sc).state ≠ (s.link sc).state))

/-- A packet, timer expiry or command that reaches one input touches no part of another input's context (R51), nor the table, a link or a
composer, and of a domain only what a report of its lock input sets: mode state, held period and next frame start. -/
def Obligations.InputEventsTouchOneInput : Prop :=
  ∀ (c : Instr) (s t : State) (i : InputId),
    ((∃ tag, c = .frameStart i tag) ∨ (∃ n f, c = .line i n f) ∨ c = .frameEnd i ∨ c = .discardedPacket i ∨ c = .missingFrameExpiry i ∨
      (∃ b, c = .resetSource b ∧ inputOf b = some i) ∨
      (∃ b w h d p e n m, c = .setSource b w h d p e n m ∧ inputOf b = some i)) →
    exec c s = .next t →
    (∀ j, j ≠ i → t.input j = s.input j) ∧
    (∀ d, t.domain d = { s.domain d with
      mode := (t.domain d).mode, heldPeriod := (t.domain d).heldPeriod, nextStart := (t.domain d).nextStart }) ∧
    (∀ d, (∀ delay, (s.domain d).settings.mode ≠ .lock i delay) → t.domain d = s.domain d) ∧
    t = { s with inputs := t.inputs, domains := t.domains, notices := t.notices, port := t.port }

/-- A READY slot is not written: while it stays READY its pixels, lines stored, stored geometry and source frame number stay as they were
at publication (R77), whatever command, packet or frame start is taken; and a slot with a holder stays READY but for a frame start (R86). -/
def Obligations.ReadySlotsAreNotWritten : Prop :=
  ∀ (c : Instr) (s t : State) (r : SlotRef), c ≠ .resetnRelease → SlotLaw s → exec c s = .next t → (s.slot r).state = .ready →
    ((t.slot r).state = .ready →
      (t.slot r).lines = (s.slot r).lines ∧ (t.slot r).geometry = (s.slot r).geometry ∧ (t.slot r).frameNumber = (s.slot r).frameNumber) ∧
    (NewLaw s → isFrameStart c = false → 1 ≤ (s.slot r).holders → (t.slot r).state = .ready ∧ (t.slot r).holders = (s.slot r).holders)

/-! ### Invariants: every step keeps the laws of the device, from every state that obeys them -/

/-- The notice set holds at most one entry for each pair of kind and subject, with a count of 1 to 255 and of no masked kind (R176, R178,
R182). -/
def Obligations.StepKeepsTheNoticeSet : Prop :=
  ∀ s t : State, NoticeLaw s → step s = .next t → NoticeLaw t

/-- Every stored image goes on passing the four checks of R13, against the inputs and screens as they are configured at every moment (R6,
R8, R69), and a SAFETY record is never frozen and its view is SHOWING, FILLED or ALTERNATE (R138). At most 16 NEW or LIVE records target
any one screen (R18), and the live lists stay numbered from the bottom and in layer order (R12, R43). -/
def Obligations.StepKeepsTheTable : Prop :=
  ∀ s t : State, step s = .next t → (ImageLaw s → ImageLaw t) ∧ (NewLaw s → NewLaw t) ∧
    (ImageLaw s → SafetyViewLaw s → SafetyViewLaw t) ∧ (ScreenLimit s → ScreenLimit t) ∧ (ImageLaw s → JoinLaw s → JoinLaw t)

/-- On every screen, every line is covered by at most 6 LIVE placements in their committed images, and each rear screen has at most one
LIVE selectable placement (R31, R45). -/
def Obligations.StepKeepsLineCoverage : Prop :=
  ∀ s t : State, ImageLaw s → step s = .next t → (CoverageLaw s → CoverageLaw t) ∧ (SelectLaw s → SelectLaw t)

/-- No LIVE placement drawn above a LIVE SAFETY placement on the same screen ever intersects its committed target rectangle (R32, R45). -/
def Obligations.StepKeepsSafetyUncovered : Prop :=
  ∀ s t : State, ImageLaw s → JoinLaw s → OcclusionLaw s → step s = .next t → OcclusionLaw t

/-- For every slot the holder count equals the number of placements whose latched slot it is (R80), and state, latest mark and holder
count take one of the combinations of R74, with at most one latest and one FILLING slot. The picture store's contents stay in canonical
form: stored lines in rising order, within the stored geometry and of exactly the stored width, and the open frame's lines received those
of its slot (R52, R73, R82). -/
def Obligations.StepKeepsThePictureStore : Prop :=
  ∀ s t : State, HolderLaw s → SlotLaw s → step s = .next t → (NewLaw s → HolderLaw t ∧ SlotLaw t) ∧ (LineLaw s → LineLaw t)

/-- A view and its latched slot agree by the table of R134, a frozen record's slot is one of its committed source (R136), and a placement
in view SHOWING draws a source frame whose age is below its hold limit (R138). -/
def Obligations.StepKeepsViewsFresh : Prop :=
  ∀ s t : State, step s = .next t →
    (FrozenSlotLaw s → FrozenSlotLaw t) ∧ (FrozenSlotLaw s → ViewLaw s → ViewLaw t) ∧ (FreshLaw s → FreshLaw t)

/-- The parts of the inputs and links stay within the ranges of R51 and R144, with the runs below the counts that bound them (R63, R152).
A domain's mode state follows its mode, and is LOCKED only while its lock input is (R89, R93, R95); every lock delay, in effect or
pending, stays below its input's period less its tolerance (R67, R99); and the agreeing run counts only in SYNC_LOST (R103). -/
def Obligations.StepKeepsInputsDomainsAndLinks : Prop :=
  ∀ s t : State, step s = .next t → (InputLaw s → InputLaw t) ∧ (LinkLaw s → LinkLaw t) ∧ (ModeLaw s → ModeLaw t) ∧
    (DelayLaw s → DelayLaw t) ∧ (SyncLaw s → SyncLaw t)

end Statements
end

