-- ==== Sys2Proof/Laws/State.lean ====
section
/-! SUPPORT. The small lemmas of the state: reading and writing one of a family of like things, what an accessor reads after a record update,
and, for each operation that writes one thing, every field it leaves. All are simp lemmas, in one normal form: the accessors `State.record`,
`State.placement`, `State.input`, `State.slot`, `State.domain`, `State.composer` and `State.link` stay folded. Do not give simp the definition
of an accessor beside these lemmas: it would be folded back at once. -/

namespace Sys2Proof.Machine

/-! ### Families of like things -/

@[simp] theorem PerInput.get_set {α : Type} (p : PerInput α) (i j : InputId) (v : α) : (p.set i v).get j = if j = i then v else p.get j := by
  cases i <;> cases j <;> rfl

@[simp] theorem PerInput.set_get {α : Type} (p : PerInput α) (i : InputId) : p.set i (p.get i) = p := by cases i <;> rfl

@[simp] theorem PerInput.set_set {α : Type} (p : PerInput α) (i : InputId) (v w : α) : (p.set i v).set i w = p.set i w := by cases i <;> rfl

/-- Two families are equal when they agree everywhere. -/
theorem PerInput.ext_get {α : Type} {p q : PerInput α} (h : ∀ i, p.get i = q.get i) : p = q := by
  cases p; cases q
  simp only [PerInput.mk.injEq]
  exact ⟨h .a, h .b, h .c, h .d⟩

@[simp] theorem PerScreen.get_set {α : Type} (p : PerScreen α) (i j : Screen) (v : α) : (p.set i v).get j = if j = i then v else p.get j := by
  cases i <;> cases j <;> rfl

@[simp] theorem PerScreen.set_get {α : Type} (p : PerScreen α) (i : Screen) : p.set i (p.get i) = p := by cases i <;> rfl

@[simp] theorem PerScreen.set_set {α : Type} (p : PerScreen α) (i : Screen) (v w : α) : (p.set i v).set i w = p.set i w := by cases i <;> rfl

/-- Two families are equal when they agree everywhere. -/
theorem PerScreen.ext_get {α : Type} {p q : PerScreen α} (h : ∀ i, p.get i = q.get i) : p = q := by
  cases p; cases q
  simp only [PerScreen.mk.injEq]
  exact ⟨h .s0, h .s1, h .s2, h .s3⟩

@[simp] theorem PerDomain.get_set {α : Type} (p : PerDomain α) (i j : Domain) (v : α) : (p.set i v).get j = if j = i then v else p.get j := by
  cases i <;> cases j <;> rfl

@[simp] theorem PerDomain.set_get {α : Type} (p : PerDomain α) (i : Domain) : p.set i (p.get i) = p := by cases i <;> rfl

@[simp] theorem PerDomain.set_set {α : Type} (p : PerDomain α) (i : Domain) (v w : α) : (p.set i v).set i w = p.set i w := by cases i <;> rfl

/-- Two families are equal when they agree everywhere. -/
theorem PerDomain.ext_get {α : Type} {p q : PerDomain α} (h : ∀ i, p.get i = q.get i) : p = q := by
  cases p; cases q
  simp only [PerDomain.mk.injEq]
  exact ⟨h .front, h .rear⟩

@[simp] theorem PerSlot.get_set {α : Type} (p : PerSlot α) (i j : SlotIndex) (v : α) : (p.set i v).get j = if j = i then v else p.get j := by
  cases i <;> cases j <;> rfl

@[simp] theorem PerSlot.set_get {α : Type} (p : PerSlot α) (i : SlotIndex) : p.set i (p.get i) = p := by cases i <;> rfl

@[simp] theorem PerSlot.set_set {α : Type} (p : PerSlot α) (i : SlotIndex) (v w : α) : (p.set i v).set i w = p.set i w := by cases i <;> rfl

/-- Two families are equal when they agree everywhere. -/
theorem PerSlot.ext_get {α : Type} {p q : PerSlot α} (h : ∀ i, p.get i = q.get i) : p = q := by
  cases p; cases q
  simp only [PerSlot.mk.injEq]
  exact ⟨h .k0, h .k1, h .k2, h .k3, h .k4⟩

/-! ### The fixed lists hold everything -/

@[simp] theorem mem_allInputs (i : InputId) : i ∈ allInputs := by cases i <;> decide

@[simp] theorem mem_allScreens (sc : Screen) : sc ∈ allScreens := by cases sc <;> decide

@[simp] theorem mem_allDomains (d : Domain) : d ∈ allDomains := by cases d <;> decide

@[simp] theorem mem_allSlots (k : SlotIndex) : k ∈ allSlots := by cases k <;> decide

@[simp] theorem mem_allHandles (h : Handle) : h ∈ allHandles := List.mem_finRange h

@[simp] theorem mem_allKinds (k : NoticeKind) : k ∈ allKinds := by cases k <;> decide

/-- The handles stand in rising order. -/
theorem allHandles_sorted : allHandles.Pairwise (· < ·) := List.pairwise_lt_finRange 64

/-! ### What an accessor reads of a state written field by field -/

@[simp] theorem State.record_mk (a : Time) (b : Bool) (tab : Table) (d : PerInput InputContext) (e : PerDomain DomainContext) (f : PerScreen Composer)
    (g : PerScreen LinkContext) (p : Port) (n : NoticeUnit) (q : List Instr) (m : Nat)
    (h : Handle) : (State.mk a b tab d e f g p n q m).record h = tab[h] := rfl

@[simp] theorem State.input_mk (a : Time) (b : Bool) (tab : Table) (d : PerInput InputContext) (e : PerDomain DomainContext) (f : PerScreen Composer)
    (g : PerScreen LinkContext) (p : Port) (n : NoticeUnit) (q : List Instr) (m : Nat)
    (i : InputId) : (State.mk a b tab d e f g p n q m).input i = d.get i := rfl

@[simp] theorem State.domain_mk (a : Time) (b : Bool) (tab : Table) (d : PerInput InputContext) (e : PerDomain DomainContext) (f : PerScreen Composer)
    (g : PerScreen LinkContext) (p : Port) (n : NoticeUnit) (q : List Instr) (m : Nat)
    (x : Domain) : (State.mk a b tab d e f g p n q m).domain x = e.get x := rfl

@[simp] theorem State.composer_mk (a : Time) (b : Bool) (tab : Table) (d : PerInput InputContext) (e : PerDomain DomainContext) (f : PerScreen Composer)
    (g : PerScreen LinkContext) (p : Port) (n : NoticeUnit) (q : List Instr) (m : Nat)
    (sc : Screen) : (State.mk a b tab d e f g p n q m).composer sc = f.get sc := rfl

@[simp] theorem State.link_mk (a : Time) (b : Bool) (tab : Table) (d : PerInput InputContext) (e : PerDomain DomainContext) (f : PerScreen Composer)
    (g : PerScreen LinkContext) (p : Port) (n : NoticeUnit) (q : List Instr) (m : Nat)
    (sc : Screen) : (State.mk a b tab d e f g p n q m).link sc = g.get sc := rfl

@[simp] theorem State.slot_mk (a : Time) (b : Bool) (tab : Table) (d : PerInput InputContext) (e : PerDomain DomainContext) (f : PerScreen Composer)
    (g : PerScreen LinkContext) (p : Port) (n : NoticeUnit) (q : List Instr) (m : Nat)
    (r : SlotRef) : (State.mk a b tab d e f g p n q m).slot r = (d.get r.input).slots.get r.index := rfl

@[simp] theorem State.placement_mk (a : Time) (b : Bool) (tab : Table) (d : PerInput InputContext) (e : PerDomain DomainContext) (f : PerScreen Composer)
    (g : PerScreen LinkContext) (p : Port) (n : NoticeUnit) (q : List Instr) (m : Nat)
    (h : Handle) : (State.mk a b tab d e f g p n q m).placement h = tab[h].body := rfl

@[simp] theorem State.table_getElem (s : State) (h : Handle) : s.table[h] = s.record h := rfl

@[simp] theorem State.table_getElem_val (s : State) (h : Handle) : s.table[h.val] = s.record h := rfl

@[simp] theorem State.record_body (s : State) (h : Handle) : (s.record h).body = s.placement h := rfl

@[simp] theorem State.inputs_get (s : State) (i : InputId) : s.inputs.get i = s.input i := rfl

@[simp] theorem State.domains_get (s : State) (d : Domain) : s.domains.get d = s.domain d := rfl

@[simp] theorem State.composers_get (s : State) (sc : Screen) : s.composers.get sc = s.composer sc := rfl

@[simp] theorem State.links_get (s : State) (sc : Screen) : s.links.get sc = s.link sc := rfl

/-- The table of a state is its records. -/
theorem State.table_ext {s t : State} (h : ∀ k, s.record k = t.record k) : s.table = t.table :=
  Vector.ext fun i hi => h ⟨i, hi⟩

/-- Two states are equal when every accessor and every other field agree. -/
theorem State.ext_get {s t : State} (ht : s.timeBase = t.timeBase) (hr : s.resetLow = t.resetLow) (hk : ∀ h, s.record h = t.record h)
    (hi : ∀ i, s.input i = t.input i) (hd : ∀ d, s.domain d = t.domain d) (hc : ∀ sc, s.composer sc = t.composer sc)
    (hl : ∀ sc, s.link sc = t.link sc) (hp : s.port = t.port) (hn : s.notices = t.notices) (hq : s.pending = t.pending)
    (hm : s.choiceCount = t.choiceCount) : s = t := by
  have h1 := State.table_ext hk
  have h2 := PerInput.ext_get hi
  have h3 := PerDomain.ext_get hd
  have h4 := PerScreen.ext_get hc
  have h5 := PerScreen.ext_get hl
  cases s; cases t
  simp_all

/-! ### What each plain operation leaves -/

@[simp] theorem State.setRecord_timeBase (s : State) (k : Handle) (r : Record) : (s.setRecord k r).timeBase = s.timeBase := rfl
@[simp] theorem State.setRecord_resetLow (s : State) (k : Handle) (r : Record) : (s.setRecord k r).resetLow = s.resetLow := rfl
@[simp] theorem State.setRecord_inputs (s : State) (k : Handle) (r : Record) : (s.setRecord k r).inputs = s.inputs := rfl
@[simp] theorem State.setRecord_domains (s : State) (k : Handle) (r : Record) : (s.setRecord k r).domains = s.domains := rfl
@[simp] theorem State.setRecord_composers (s : State) (k : Handle) (r : Record) : (s.setRecord k r).composers = s.composers := rfl
@[simp] theorem State.setRecord_links (s : State) (k : Handle) (r : Record) : (s.setRecord k r).links = s.links := rfl
@[simp] theorem State.setRecord_port (s : State) (k : Handle) (r : Record) : (s.setRecord k r).port = s.port := rfl
@[simp] theorem State.setRecord_notices (s : State) (k : Handle) (r : Record) : (s.setRecord k r).notices = s.notices := rfl
@[simp] theorem State.setRecord_pending (s : State) (k : Handle) (r : Record) : (s.setRecord k r).pending = s.pending := rfl
@[simp] theorem State.setRecord_choiceCount (s : State) (k : Handle) (r : Record) : (s.setRecord k r).choiceCount = s.choiceCount := rfl
@[simp] theorem State.setRecord_input (s : State) (k : Handle) (r : Record) (i : InputId) : (s.setRecord k r).input i = s.input i := rfl
@[simp] theorem State.setRecord_slot (s : State) (k : Handle) (r : Record) (q : SlotRef) : (s.setRecord k r).slot q = s.slot q := rfl
@[simp] theorem State.setRecord_domain (s : State) (k : Handle) (r : Record) (d : Domain) : (s.setRecord k r).domain d = s.domain d := rfl
@[simp] theorem State.setRecord_composer (s : State) (k : Handle) (r : Record) (sc : Screen) : (s.setRecord k r).composer sc = s.composer sc := rfl
@[simp] theorem State.setRecord_link (s : State) (k : Handle) (r : Record) (sc : Screen) : (s.setRecord k r).link sc = s.link sc := rfl

@[simp] theorem State.setBody_timeBase (s : State) (k : Handle) (b : Option Placement) : (s.setBody k b).timeBase = s.timeBase := rfl
@[simp] theorem State.setBody_resetLow (s : State) (k : Handle) (b : Option Placement) : (s.setBody k b).resetLow = s.resetLow := rfl
@[simp] theorem State.setBody_inputs (s : State) (k : Handle) (b : Option Placement) : (s.setBody k b).inputs = s.inputs := rfl
@[simp] theorem State.setBody_domains (s : State) (k : Handle) (b : Option Placement) : (s.setBody k b).domains = s.domains := rfl
@[simp] theorem State.setBody_composers (s : State) (k : Handle) (b : Option Placement) : (s.setBody k b).composers = s.composers := rfl
@[simp] theorem State.setBody_links (s : State) (k : Handle) (b : Option Placement) : (s.setBody k b).links = s.links := rfl
@[simp] theorem State.setBody_port (s : State) (k : Handle) (b : Option Placement) : (s.setBody k b).port = s.port := rfl
@[simp] theorem State.setBody_notices (s : State) (k : Handle) (b : Option Placement) : (s.setBody k b).notices = s.notices := rfl
@[simp] theorem State.setBody_pending (s : State) (k : Handle) (b : Option Placement) : (s.setBody k b).pending = s.pending := rfl
@[simp] theorem State.setBody_choiceCount (s : State) (k : Handle) (b : Option Placement) : (s.setBody k b).choiceCount = s.choiceCount := rfl
@[simp] theorem State.setBody_input (s : State) (k : Handle) (b : Option Placement) (i : InputId) : (s.setBody k b).input i = s.input i := rfl
@[simp] theorem State.setBody_slot (s : State) (k : Handle) (b : Option Placement) (r : SlotRef) : (s.setBody k b).slot r = s.slot r := rfl
@[simp] theorem State.setBody_domain (s : State) (k : Handle) (b : Option Placement) (d : Domain) : (s.setBody k b).domain d = s.domain d := rfl
@[simp] theorem State.setBody_composer (s : State) (k : Handle) (b : Option Placement) (sc : Screen) : (s.setBody k b).composer sc = s.composer sc := rfl
@[simp] theorem State.setBody_link (s : State) (k : Handle) (b : Option Placement) (sc : Screen) : (s.setBody k b).link sc = s.link sc := rfl

@[simp] theorem State.advanceGeneration_timeBase (s : State) (k : Handle) : (s.advanceGeneration k).timeBase = s.timeBase := rfl
@[simp] theorem State.advanceGeneration_resetLow (s : State) (k : Handle) : (s.advanceGeneration k).resetLow = s.resetLow := rfl
@[simp] theorem State.advanceGeneration_inputs (s : State) (k : Handle) : (s.advanceGeneration k).inputs = s.inputs := rfl
@[simp] theorem State.advanceGeneration_domains (s : State) (k : Handle) : (s.advanceGeneration k).domains = s.domains := rfl
@[simp] theorem State.advanceGeneration_composers (s : State) (k : Handle) : (s.advanceGeneration k).composers = s.composers := rfl
@[simp] theorem State.advanceGeneration_links (s : State) (k : Handle) : (s.advanceGeneration k).links = s.links := rfl
@[simp] theorem State.advanceGeneration_port (s : State) (k : Handle) : (s.advanceGeneration k).port = s.port := rfl
@[simp] theorem State.advanceGeneration_notices (s : State) (k : Handle) : (s.advanceGeneration k).notices = s.notices := rfl
@[simp] theorem State.advanceGeneration_pending (s : State) (k : Handle) : (s.advanceGeneration k).pending = s.pending := rfl
@[simp] theorem State.advanceGeneration_choiceCount (s : State) (k : Handle) : (s.advanceGeneration k).choiceCount = s.choiceCount := rfl
@[simp] theorem State.advanceGeneration_input (s : State) (k : Handle) (i : InputId) : (s.advanceGeneration k).input i = s.input i := rfl
@[simp] theorem State.advanceGeneration_slot (s : State) (k : Handle) (r : SlotRef) : (s.advanceGeneration k).slot r = s.slot r := rfl
@[simp] theorem State.advanceGeneration_domain (s : State) (k : Handle) (d : Domain) : (s.advanceGeneration k).domain d = s.domain d := rfl
@[simp] theorem State.advanceGeneration_composer (s : State) (k : Handle) (sc : Screen) : (s.advanceGeneration k).composer sc = s.composer sc := rfl
@[simp] theorem State.advanceGeneration_link (s : State) (k : Handle) (sc : Screen) : (s.advanceGeneration k).link sc = s.link sc := rfl

@[simp] theorem State.modInput_timeBase (s : State) (k : InputId) (f : InputContext → InputContext) : (s.modInput k f).timeBase = s.timeBase := rfl
@[simp] theorem State.modInput_resetLow (s : State) (k : InputId) (f : InputContext → InputContext) : (s.modInput k f).resetLow = s.resetLow := rfl
@[simp] theorem State.modInput_table (s : State) (k : InputId) (f : InputContext → InputContext) : (s.modInput k f).table = s.table := rfl
@[simp] theorem State.modInput_domains (s : State) (k : InputId) (f : InputContext → InputContext) : (s.modInput k f).domains = s.domains := rfl
@[simp] theorem State.modInput_composers (s : State) (k : InputId) (f : InputContext → InputContext) : (s.modInput k f).composers = s.composers := rfl
@[simp] theorem State.modInput_links (s : State) (k : InputId) (f : InputContext → InputContext) : (s.modInput k f).links = s.links := rfl
@[simp] theorem State.modInput_port (s : State) (k : InputId) (f : InputContext → InputContext) : (s.modInput k f).port = s.port := rfl
@[simp] theorem State.modInput_notices (s : State) (k : InputId) (f : InputContext → InputContext) : (s.modInput k f).notices = s.notices := rfl
@[simp] theorem State.modInput_pending (s : State) (k : InputId) (f : InputContext → InputContext) : (s.modInput k f).pending = s.pending := rfl
@[simp] theorem State.modInput_choiceCount (s : State) (k : InputId) (f : InputContext → InputContext) : (s.modInput k f).choiceCount = s.choiceCount := rfl
@[simp] theorem State.modInput_record (s : State) (k : InputId) (f : InputContext → InputContext) (h : Handle) : (s.modInput k f).record h = s.record h := rfl
@[simp] theorem State.modInput_placement (s : State) (k : InputId) (f : InputContext → InputContext) (h : Handle) : (s.modInput k f).placement h = s.placement h := rfl
@[simp] theorem State.modInput_domain (s : State) (k : InputId) (f : InputContext → InputContext) (d : Domain) : (s.modInput k f).domain d = s.domain d := rfl
@[simp] theorem State.modInput_composer (s : State) (k : InputId) (f : InputContext → InputContext) (sc : Screen) : (s.modInput k f).composer sc = s.composer sc := rfl
@[simp] theorem State.modInput_link (s : State) (k : InputId) (f : InputContext → InputContext) (sc : Screen) : (s.modInput k f).link sc = s.link sc := rfl

@[simp] theorem State.modSlot_timeBase (s : State) (k : SlotRef) (f : Slot → Slot) : (s.modSlot k f).timeBase = s.timeBase := rfl
@[simp] theorem State.modSlot_resetLow (s : State) (k : SlotRef) (f : Slot → Slot) : (s.modSlot k f).resetLow = s.resetLow := rfl
@[simp] theorem State.modSlot_table (s : State) (k : SlotRef) (f : Slot → Slot) : (s.modSlot k f).table = s.table := rfl
@[simp] theorem State.modSlot_domains (s : State) (k : SlotRef) (f : Slot → Slot) : (s.modSlot k f).domains = s.domains := rfl
@[simp] theorem State.modSlot_composers (s : State) (k : SlotRef) (f : Slot → Slot) : (s.modSlot k f).composers = s.composers := rfl
@[simp] theorem State.modSlot_links (s : State) (k : SlotRef) (f : Slot → Slot) : (s.modSlot k f).links = s.links := rfl
@[simp] theorem State.modSlot_port (s : State) (k : SlotRef) (f : Slot → Slot) : (s.modSlot k f).port = s.port := rfl
@[simp] theorem State.modSlot_notices (s : State) (k : SlotRef) (f : Slot → Slot) : (s.modSlot k f).notices = s.notices := rfl
@[simp] theorem State.modSlot_pending (s : State) (k : SlotRef) (f : Slot → Slot) : (s.modSlot k f).pending = s.pending := rfl
@[simp] theorem State.modSlot_choiceCount (s : State) (k : SlotRef) (f : Slot → Slot) : (s.modSlot k f).choiceCount = s.choiceCount := rfl
@[simp] theorem State.modSlot_record (s : State) (k : SlotRef) (f : Slot → Slot) (h : Handle) : (s.modSlot k f).record h = s.record h := rfl
@[simp] theorem State.modSlot_placement (s : State) (k : SlotRef) (f : Slot → Slot) (h : Handle) : (s.modSlot k f).placement h = s.placement h := rfl
@[simp] theorem State.modSlot_domain (s : State) (k : SlotRef) (f : Slot → Slot) (d : Domain) : (s.modSlot k f).domain d = s.domain d := rfl
@[simp] theorem State.modSlot_composer (s : State) (k : SlotRef) (f : Slot → Slot) (sc : Screen) : (s.modSlot k f).composer sc = s.composer sc := rfl
@[simp] theorem State.modSlot_link (s : State) (k : SlotRef) (f : Slot → Slot) (sc : Screen) : (s.modSlot k f).link sc = s.link sc := rfl

@[simp] theorem State.setRuns_timeBase (s : State) (k : InputId) (g b : Nat) : (s.setRuns k g b).timeBase = s.timeBase := rfl
@[simp] theorem State.setRuns_resetLow (s : State) (k : InputId) (g b : Nat) : (s.setRuns k g b).resetLow = s.resetLow := rfl
@[simp] theorem State.setRuns_table (s : State) (k : InputId) (g b : Nat) : (s.setRuns k g b).table = s.table := rfl
@[simp] theorem State.setRuns_domains (s : State) (k : InputId) (g b : Nat) : (s.setRuns k g b).domains = s.domains := rfl
@[simp] theorem State.setRuns_composers (s : State) (k : InputId) (g b : Nat) : (s.setRuns k g b).composers = s.composers := rfl
@[simp] theorem State.setRuns_links (s : State) (k : InputId) (g b : Nat) : (s.setRuns k g b).links = s.links := rfl
@[simp] theorem State.setRuns_port (s : State) (k : InputId) (g b : Nat) : (s.setRuns k g b).port = s.port := rfl
@[simp] theorem State.setRuns_notices (s : State) (k : InputId) (g b : Nat) : (s.setRuns k g b).notices = s.notices := rfl
@[simp] theorem State.setRuns_pending (s : State) (k : InputId) (g b : Nat) : (s.setRuns k g b).pending = s.pending := rfl
@[simp] theorem State.setRuns_choiceCount (s : State) (k : InputId) (g b : Nat) : (s.setRuns k g b).choiceCount = s.choiceCount := rfl
@[simp] theorem State.setRuns_record (s : State) (k : InputId) (g b : Nat) (h : Handle) : (s.setRuns k g b).record h = s.record h := rfl
@[simp] theorem State.setRuns_placement (s : State) (k : InputId) (g b : Nat) (h : Handle) : (s.setRuns k g b).placement h = s.placement h := rfl
@[simp] theorem State.setRuns_domain (s : State) (k : InputId) (g b : Nat) (d : Domain) : (s.setRuns k g b).domain d = s.domain d := rfl
@[simp] theorem State.setRuns_composer (s : State) (k : InputId) (g b : Nat) (sc : Screen) : (s.setRuns k g b).composer sc = s.composer sc := rfl
@[simp] theorem State.setRuns_link (s : State) (k : InputId) (g b : Nat) (sc : Screen) : (s.setRuns k g b).link sc = s.link sc := rfl

@[simp] theorem State.modDomain_timeBase (s : State) (k : Domain) (f : DomainContext → DomainContext) : (s.modDomain k f).timeBase = s.timeBase := rfl
@[simp] theorem State.modDomain_resetLow (s : State) (k : Domain) (f : DomainContext → DomainContext) : (s.modDomain k f).resetLow = s.resetLow := rfl
@[simp] theorem State.modDomain_table (s : State) (k : Domain) (f : DomainContext → DomainContext) : (s.modDomain k f).table = s.table := rfl
@[simp] theorem State.modDomain_inputs (s : State) (k : Domain) (f : DomainContext → DomainContext) : (s.modDomain k f).inputs = s.inputs := rfl
@[simp] theorem State.modDomain_composers (s : State) (k : Domain) (f : DomainContext → DomainContext) : (s.modDomain k f).composers = s.composers := rfl
@[simp] theorem State.modDomain_links (s : State) (k : Domain) (f : DomainContext → DomainContext) : (s.modDomain k f).links = s.links := rfl
@[simp] theorem State.modDomain_port (s : State) (k : Domain) (f : DomainContext → DomainContext) : (s.modDomain k f).port = s.port := rfl
@[simp] theorem State.modDomain_notices (s : State) (k : Domain) (f : DomainContext → DomainContext) : (s.modDomain k f).notices = s.notices := rfl
@[simp] theorem State.modDomain_pending (s : State) (k : Domain) (f : DomainContext → DomainContext) : (s.modDomain k f).pending = s.pending := rfl
@[simp] theorem State.modDomain_choiceCount (s : State) (k : Domain) (f : DomainContext → DomainContext) : (s.modDomain k f).choiceCount = s.choiceCount := rfl
@[simp] theorem State.modDomain_record (s : State) (k : Domain) (f : DomainContext → DomainContext) (h : Handle) : (s.modDomain k f).record h = s.record h := rfl
@[simp] theorem State.modDomain_placement (s : State) (k : Domain) (f : DomainContext → DomainContext) (h : Handle) : (s.modDomain k f).placement h = s.placement h := rfl
@[simp] theorem State.modDomain_input (s : State) (k : Domain) (f : DomainContext → DomainContext) (i : InputId) : (s.modDomain k f).input i = s.input i := rfl
@[simp] theorem State.modDomain_slot (s : State) (k : Domain) (f : DomainContext → DomainContext) (r : SlotRef) : (s.modDomain k f).slot r = s.slot r := rfl
@[simp] theorem State.modDomain_composer (s : State) (k : Domain) (f : DomainContext → DomainContext) (sc : Screen) : (s.modDomain k f).composer sc = s.composer sc := rfl
@[simp] theorem State.modDomain_link (s : State) (k : Domain) (f : DomainContext → DomainContext) (sc : Screen) : (s.modDomain k f).link sc = s.link sc := rfl

@[simp] theorem State.modComposer_timeBase (s : State) (k : Screen) (f : Composer → Composer) : (s.modComposer k f).timeBase = s.timeBase := rfl
@[simp] theorem State.modComposer_resetLow (s : State) (k : Screen) (f : Composer → Composer) : (s.modComposer k f).resetLow = s.resetLow := rfl
@[simp] theorem State.modComposer_table (s : State) (k : Screen) (f : Composer → Composer) : (s.modComposer k f).table = s.table := rfl
@[simp] theorem State.modComposer_inputs (s : State) (k : Screen) (f : Composer → Composer) : (s.modComposer k f).inputs = s.inputs := rfl
@[simp] theorem State.modComposer_domains (s : State) (k : Screen) (f : Composer → Composer) : (s.modComposer k f).domains = s.domains := rfl
@[simp] theorem State.modComposer_links (s : State) (k : Screen) (f : Composer → Composer) : (s.modComposer k f).links = s.links := rfl
@[simp] theorem State.modComposer_port (s : State) (k : Screen) (f : Composer → Composer) : (s.modComposer k f).port = s.port := rfl
@[simp] theorem State.modComposer_notices (s : State) (k : Screen) (f : Composer → Composer) : (s.modComposer k f).notices = s.notices := rfl
@[simp] theorem State.modComposer_pending (s : State) (k : Screen) (f : Composer → Composer) : (s.modComposer k f).pending = s.pending := rfl
@[simp] theorem State.modComposer_choiceCount (s : State) (k : Screen) (f : Composer → Composer) : (s.modComposer k f).choiceCount = s.choiceCount := rfl
@[simp] theorem State.modComposer_record (s : State) (k : Screen) (f : Composer → Composer) (h : Handle) : (s.modComposer k f).record h = s.record h := rfl
@[simp] theorem State.modComposer_placement (s : State) (k : Screen) (f : Composer → Composer) (h : Handle) : (s.modComposer k f).placement h = s.placement h := rfl
@[simp] theorem State.modComposer_input (s : State) (k : Screen) (f : Composer → Composer) (i : InputId) : (s.modComposer k f).input i = s.input i := rfl
@[simp] theorem State.modComposer_slot (s : State) (k : Screen) (f : Composer → Composer) (r : SlotRef) : (s.modComposer k f).slot r = s.slot r := rfl
@[simp] theorem State.modComposer_domain (s : State) (k : Screen) (f : Composer → Composer) (d : Domain) : (s.modComposer k f).domain d = s.domain d := rfl
@[simp] theorem State.modComposer_link (s : State) (k : Screen) (f : Composer → Composer) (sc : Screen) : (s.modComposer k f).link sc = s.link sc := rfl

@[simp] theorem State.modLink_timeBase (s : State) (k : Screen) (f : LinkContext → LinkContext) : (s.modLink k f).timeBase = s.timeBase := rfl
@[simp] theorem State.modLink_resetLow (s : State) (k : Screen) (f : LinkContext → LinkContext) : (s.modLink k f).resetLow = s.resetLow := rfl
@[simp] theorem State.modLink_table (s : State) (k : Screen) (f : LinkContext → LinkContext) : (s.modLink k f).table = s.table := rfl
@[simp] theorem State.modLink_inputs (s : State) (k : Screen) (f : LinkContext → LinkContext) : (s.modLink k f).inputs = s.inputs := rfl
@[simp] theorem State.modLink_domains (s : State) (k : Screen) (f : LinkContext → LinkContext) : (s.modLink k f).domains = s.domains := rfl
@[simp] theorem State.modLink_composers (s : State) (k : Screen) (f : LinkContext → LinkContext) : (s.modLink k f).composers = s.composers := rfl
@[simp] theorem State.modLink_port (s : State) (k : Screen) (f : LinkContext → LinkContext) : (s.modLink k f).port = s.port := rfl
@[simp] theorem State.modLink_notices (s : State) (k : Screen) (f : LinkContext → LinkContext) : (s.modLink k f).notices = s.notices := rfl
@[simp] theorem State.modLink_pending (s : State) (k : Screen) (f : LinkContext → LinkContext) : (s.modLink k f).pending = s.pending := rfl
@[simp] theorem State.modLink_choiceCount (s : State) (k : Screen) (f : LinkContext → LinkContext) : (s.modLink k f).choiceCount = s.choiceCount := rfl
@[simp] theorem State.modLink_record (s : State) (k : Screen) (f : LinkContext → LinkContext) (h : Handle) : (s.modLink k f).record h = s.record h := rfl
@[simp] theorem State.modLink_placement (s : State) (k : Screen) (f : LinkContext → LinkContext) (h : Handle) : (s.modLink k f).placement h = s.placement h := rfl
@[simp] theorem State.modLink_input (s : State) (k : Screen) (f : LinkContext → LinkContext) (i : InputId) : (s.modLink k f).input i = s.input i := rfl
@[simp] theorem State.modLink_slot (s : State) (k : Screen) (f : LinkContext → LinkContext) (r : SlotRef) : (s.modLink k f).slot r = s.slot r := rfl
@[simp] theorem State.modLink_domain (s : State) (k : Screen) (f : LinkContext → LinkContext) (d : Domain) : (s.modLink k f).domain d = s.domain d := rfl
@[simp] theorem State.modLink_composer (s : State) (k : Screen) (f : LinkContext → LinkContext) (sc : Screen) : (s.modLink k f).composer sc = s.composer sc := rfl

@[simp] theorem State.respond_timeBase (s : State) (c : ResultCode) (b : List Byte) : (s.respond c b).timeBase = s.timeBase := rfl
@[simp] theorem State.respond_resetLow (s : State) (c : ResultCode) (b : List Byte) : (s.respond c b).resetLow = s.resetLow := rfl
@[simp] theorem State.respond_table (s : State) (c : ResultCode) (b : List Byte) : (s.respond c b).table = s.table := rfl
@[simp] theorem State.respond_inputs (s : State) (c : ResultCode) (b : List Byte) : (s.respond c b).inputs = s.inputs := rfl
@[simp] theorem State.respond_domains (s : State) (c : ResultCode) (b : List Byte) : (s.respond c b).domains = s.domains := rfl
@[simp] theorem State.respond_composers (s : State) (c : ResultCode) (b : List Byte) : (s.respond c b).composers = s.composers := rfl
@[simp] theorem State.respond_links (s : State) (c : ResultCode) (b : List Byte) : (s.respond c b).links = s.links := rfl
@[simp] theorem State.respond_notices (s : State) (c : ResultCode) (b : List Byte) : (s.respond c b).notices = s.notices := rfl
@[simp] theorem State.respond_pending (s : State) (c : ResultCode) (b : List Byte) : (s.respond c b).pending = s.pending := rfl
@[simp] theorem State.respond_choiceCount (s : State) (c : ResultCode) (b : List Byte) : (s.respond c b).choiceCount = s.choiceCount := rfl
@[simp] theorem State.respond_record (s : State) (c : ResultCode) (b : List Byte) (h : Handle) : (s.respond c b).record h = s.record h := rfl
@[simp] theorem State.respond_placement (s : State) (c : ResultCode) (b : List Byte) (h : Handle) : (s.respond c b).placement h = s.placement h := rfl
@[simp] theorem State.respond_input (s : State) (c : ResultCode) (b : List Byte) (i : InputId) : (s.respond c b).input i = s.input i := rfl
@[simp] theorem State.respond_slot (s : State) (c : ResultCode) (b : List Byte) (r : SlotRef) : (s.respond c b).slot r = s.slot r := rfl
@[simp] theorem State.respond_domain (s : State) (c : ResultCode) (b : List Byte) (d : Domain) : (s.respond c b).domain d = s.domain d := rfl
@[simp] theorem State.respond_composer (s : State) (c : ResultCode) (b : List Byte) (sc : Screen) : (s.respond c b).composer sc = s.composer sc := rfl
@[simp] theorem State.respond_link (s : State) (c : ResultCode) (b : List Byte) (sc : Screen) : (s.respond c b).link sc = s.link sc := rfl

@[simp] theorem State.refuse_timeBase (s : State) (c : ResultCode) : (s.refuse c).timeBase = s.timeBase := rfl
@[simp] theorem State.refuse_resetLow (s : State) (c : ResultCode) : (s.refuse c).resetLow = s.resetLow := rfl
@[simp] theorem State.refuse_table (s : State) (c : ResultCode) : (s.refuse c).table = s.table := rfl
@[simp] theorem State.refuse_inputs (s : State) (c : ResultCode) : (s.refuse c).inputs = s.inputs := rfl
@[simp] theorem State.refuse_domains (s : State) (c : ResultCode) : (s.refuse c).domains = s.domains := rfl
@[simp] theorem State.refuse_composers (s : State) (c : ResultCode) : (s.refuse c).composers = s.composers := rfl
@[simp] theorem State.refuse_links (s : State) (c : ResultCode) : (s.refuse c).links = s.links := rfl
@[simp] theorem State.refuse_notices (s : State) (c : ResultCode) : (s.refuse c).notices = s.notices := rfl
@[simp] theorem State.refuse_pending (s : State) (c : ResultCode) : (s.refuse c).pending = s.pending := rfl
@[simp] theorem State.refuse_choiceCount (s : State) (c : ResultCode) : (s.refuse c).choiceCount = s.choiceCount := rfl
@[simp] theorem State.refuse_record (s : State) (c : ResultCode) (h : Handle) : (s.refuse c).record h = s.record h := rfl
@[simp] theorem State.refuse_placement (s : State) (c : ResultCode) (h : Handle) : (s.refuse c).placement h = s.placement h := rfl
@[simp] theorem State.refuse_input (s : State) (c : ResultCode) (i : InputId) : (s.refuse c).input i = s.input i := rfl
@[simp] theorem State.refuse_slot (s : State) (c : ResultCode) (r : SlotRef) : (s.refuse c).slot r = s.slot r := rfl
@[simp] theorem State.refuse_domain (s : State) (c : ResultCode) (d : Domain) : (s.refuse c).domain d = s.domain d := rfl
@[simp] theorem State.refuse_composer (s : State) (c : ResultCode) (sc : Screen) : (s.refuse c).composer sc = s.composer sc := rfl
@[simp] theorem State.refuse_link (s : State) (c : ResultCode) (sc : Screen) : (s.refuse c).link sc = s.link sc := rfl

@[simp] theorem State.withdrawViews_timeBase (s : State) (k : Handle) : (s.withdrawViews k).timeBase = s.timeBase := rfl
@[simp] theorem State.withdrawViews_resetLow (s : State) (k : Handle) : (s.withdrawViews k).resetLow = s.resetLow := rfl
@[simp] theorem State.withdrawViews_table (s : State) (k : Handle) : (s.withdrawViews k).table = s.table := rfl
@[simp] theorem State.withdrawViews_inputs (s : State) (k : Handle) : (s.withdrawViews k).inputs = s.inputs := rfl
@[simp] theorem State.withdrawViews_domains (s : State) (k : Handle) : (s.withdrawViews k).domains = s.domains := rfl
@[simp] theorem State.withdrawViews_composers (s : State) (k : Handle) : (s.withdrawViews k).composers = s.composers := rfl
@[simp] theorem State.withdrawViews_links (s : State) (k : Handle) : (s.withdrawViews k).links = s.links := rfl
@[simp] theorem State.withdrawViews_port (s : State) (k : Handle) : (s.withdrawViews k).port = s.port := rfl
@[simp] theorem State.withdrawViews_pending (s : State) (k : Handle) : (s.withdrawViews k).pending = s.pending := rfl
@[simp] theorem State.withdrawViews_choiceCount (s : State) (k : Handle) : (s.withdrawViews k).choiceCount = s.choiceCount := rfl
@[simp] theorem State.withdrawViews_record (s : State) (k : Handle) (h : Handle) : (s.withdrawViews k).record h = s.record h := rfl
@[simp] theorem State.withdrawViews_placement (s : State) (k : Handle) (h : Handle) : (s.withdrawViews k).placement h = s.placement h := rfl
@[simp] theorem State.withdrawViews_input (s : State) (k : Handle) (i : InputId) : (s.withdrawViews k).input i = s.input i := rfl
@[simp] theorem State.withdrawViews_slot (s : State) (k : Handle) (r : SlotRef) : (s.withdrawViews k).slot r = s.slot r := rfl
@[simp] theorem State.withdrawViews_domain (s : State) (k : Handle) (d : Domain) : (s.withdrawViews k).domain d = s.domain d := rfl
@[simp] theorem State.withdrawViews_composer (s : State) (k : Handle) (sc : Screen) : (s.withdrawViews k).composer sc = s.composer sc := rfl
@[simp] theorem State.withdrawViews_link (s : State) (k : Handle) (sc : Screen) : (s.withdrawViews k).link sc = s.link sc := rfl

@[simp] theorem State.tick_resetLow (s : State) : (s.tick).resetLow = s.resetLow := rfl
@[simp] theorem State.tick_table (s : State) : (s.tick).table = s.table := rfl
@[simp] theorem State.tick_inputs (s : State) : (s.tick).inputs = s.inputs := rfl
@[simp] theorem State.tick_domains (s : State) : (s.tick).domains = s.domains := rfl
@[simp] theorem State.tick_composers (s : State) : (s.tick).composers = s.composers := rfl
@[simp] theorem State.tick_links (s : State) : (s.tick).links = s.links := rfl
@[simp] theorem State.tick_port (s : State) : (s.tick).port = s.port := rfl
@[simp] theorem State.tick_notices (s : State) : (s.tick).notices = s.notices := rfl
@[simp] theorem State.tick_pending (s : State) : (s.tick).pending = s.pending := rfl
@[simp] theorem State.tick_choiceCount (s : State) : (s.tick).choiceCount = s.choiceCount := rfl
@[simp] theorem State.tick_record (s : State) (h : Handle) : (s.tick).record h = s.record h := rfl
@[simp] theorem State.tick_placement (s : State) (h : Handle) : (s.tick).placement h = s.placement h := rfl
@[simp] theorem State.tick_input (s : State) (i : InputId) : (s.tick).input i = s.input i := rfl
@[simp] theorem State.tick_slot (s : State) (r : SlotRef) : (s.tick).slot r = s.slot r := rfl
@[simp] theorem State.tick_domain (s : State) (d : Domain) : (s.tick).domain d = s.domain d := rfl
@[simp] theorem State.tick_composer (s : State) (sc : Screen) : (s.tick).composer sc = s.composer sc := rfl
@[simp] theorem State.tick_link (s : State) (sc : Screen) : (s.tick).link sc = s.link sc := rfl

/-! ### What each plain operation writes -/

@[simp] theorem State.setRecord_record (s : State) (h k : Handle) (r : Record) :
    (s.setRecord h r).record k = if k = h then r else s.record k := by
  simp only [State.setRecord, State.record, Fin.getElem_fin, Vector.getElem_set, Fin.ext_iff, eq_comm (a := h.val)]

@[simp] theorem State.setRecord_placement (s : State) (h k : Handle) (r : Record) :
    (s.setRecord h r).placement k = if k = h then r.body else s.placement k := by
  simp only [State.placement, State.setRecord_record]; split <;> rfl

@[simp] theorem State.setBody_record (s : State) (h k : Handle) (b : Option Placement) :
    (s.setBody h b).record k = if k = h then { s.record h with body := b } else s.record k := State.setRecord_record _ _ _ _

@[simp] theorem State.setBody_placement (s : State) (h k : Handle) (b : Option Placement) :
    (s.setBody h b).placement k = if k = h then b else s.placement k := by simp [State.setBody]

@[simp] theorem State.advanceGeneration_record (s : State) (h k : Handle) :
    (s.advanceGeneration h).record k =
      if k = h then { s.record h with generation := (s.record h).generation + 1 } else s.record k := State.setRecord_record _ _ _ _

@[simp] theorem State.advanceGeneration_placement (s : State) (h k : Handle) : (s.advanceGeneration h).placement k = s.placement k := by
  simp only [State.advanceGeneration, State.setRecord_placement]; split <;> simp_all

@[simp] theorem State.modInput_input (s : State) (i j : InputId) (f : InputContext → InputContext) :
    (s.modInput i f).input j = if j = i then f (s.input i) else s.input j := by simp [State.modInput]

@[simp] theorem State.setRuns_input (s : State) (i j : InputId) (g b : Nat) :
    (s.setRuns i g b).input j = if j = i then { s.input i with goodRun := g, badRun := b } else s.input j := by simp [State.setRuns]

@[simp] theorem State.setRuns_slot (s : State) (i : InputId) (g b : Nat) (r : SlotRef) : (s.setRuns i g b).slot r = s.slot r := by
  simp only [State.slot, State.setRuns_input]; split <;> simp_all

@[simp] theorem State.modSlot_slot (s : State) (r q : SlotRef) (f : Slot → Slot) :
    (s.modSlot r f).slot q = if q = r then f (s.slot r) else s.slot q := by
  obtain ⟨ri, rk⟩ := r; obtain ⟨qi, qk⟩ := q
  simp only [State.slot, State.modSlot, State.modInput_input, SlotRef.mk.injEq]
  by_cases h : qi = ri <;> simp [h]

@[simp] theorem State.modSlot_input (s : State) (r : SlotRef) (i : InputId) (f : Slot → Slot) :
    (s.modSlot r f).input i =
      if i = r.input then { s.input i with slots := (s.input i).slots.set r.index (f (s.slot r)) } else s.input i := by
  simp only [State.modSlot, State.modInput_input]
  by_cases h : i = r.input
  · subst h; rfl
  · simp [h]

@[simp] theorem State.modDomain_domain (s : State) (d e : Domain) (f : DomainContext → DomainContext) :
    (s.modDomain d f).domain e = if e = d then f (s.domain d) else s.domain e := by simp [State.modDomain]

@[simp] theorem State.modComposer_composer (s : State) (sc x : Screen) (f : Composer → Composer) :
    (s.modComposer sc f).composer x = if x = sc then f (s.composer sc) else s.composer x := by simp [State.modComposer]

@[simp] theorem State.modLink_link (s : State) (sc x : Screen) (f : LinkContext → LinkContext) :
    (s.modLink sc f).link x = if x = sc then f (s.link sc) else s.link x := by simp [State.modLink]

@[simp] theorem State.respond_port (s : State) (c : ResultCode) (b : List Byte) :
    (s.respond c b).port = { s.port with buffer := some ⟨c, b⟩ } := rfl

@[simp] theorem State.refuse_port (s : State) (c : ResultCode) : (s.refuse c).port = { s.port with buffer := some ⟨c, []⟩ } := rfl

@[simp] theorem State.withdrawViews_notices (s : State) (h : Handle) :
    (s.withdrawViews h).notices =
      { s.notices with entries := s.notices.entries.filter fun e => e.key != .view h && e.key != .safetyView h } := rfl

end Sys2Proof.Machine
end

