-- ==== Sys2Proof/Laws/Frames.lean ====
section
/-! SUPPORT. What each shared operation leaves, whatever it does: one frame equation per operation that says which parts of the state it can
change at all, and the simp lemmas that follow from it for every other field and accessor. -/

namespace Sys2Proof.Machine

/-- Two states are equal when their fields are. -/
theorem State.ext_fields {s t : State} (h1 : s.timeBase = t.timeBase) (h2 : s.resetLow = t.resetLow) (h3 : s.table = t.table)
    (h4 : s.inputs = t.inputs) (h5 : s.domains = t.domains) (h6 : s.composers = t.composers) (h7 : s.links = t.links)
    (h8 : s.port = t.port) (h9 : s.notices = t.notices) (h10 : s.pending = t.pending) (h11 : s.choiceCount = t.choiceCount) : s = t := by
  cases s; cases t
  simp_all

/-- What holds of a state and is kept by every step of a fold holds of the fold's result. -/
theorem foldl_keeps {α β : Type} {P : β → Prop} {f : β → α → β} (l : List α) {b : β} (hb : P b) (hf : ∀ b a, P b → P (f b a)) :
    P (l.foldl f b) := by
  induction l generalizing b with
  | nil => exact hb
  | cons a l ih => exact ih (hf b a hb)

theorem State.modPlacement_frame (s : State) (k : Handle) (f : Placement → Placement) :
    s.modPlacement k f = { s with table := (s.modPlacement k f).table } := by
  unfold State.modPlacement; split <;> rfl

@[simp] theorem State.modPlacement_rest (s : State) (k : Handle) (f : Placement → Placement) :
    (s.modPlacement k f).timeBase = s.timeBase ∧ (s.modPlacement k f).resetLow = s.resetLow ∧ (s.modPlacement k f).inputs = s.inputs ∧
    (s.modPlacement k f).domains = s.domains ∧ (s.modPlacement k f).composers = s.composers ∧ (s.modPlacement k f).links = s.links ∧
    (s.modPlacement k f).port = s.port ∧ (s.modPlacement k f).notices = s.notices ∧ (s.modPlacement k f).pending = s.pending ∧
    (s.modPlacement k f).choiceCount = s.choiceCount ∧ (∀ i, (s.modPlacement k f).input i = s.input i) ∧
    (∀ r, (s.modPlacement k f).slot r = s.slot r) ∧ (∀ d, (s.modPlacement k f).domain d = s.domain d) ∧
    (∀ sc, (s.modPlacement k f).composer sc = s.composer sc) ∧ (∀ sc, (s.modPlacement k f).link sc = s.link sc) := by
  rw [State.modPlacement_frame]; exact ⟨rfl, rfl, rfl, rfl, rfl, rfl, rfl, rfl, rfl, rfl, fun _ => rfl, fun _ => rfl, fun _ => rfl, fun _ => rfl, fun _ => rfl⟩

theorem State.raise_frame (s : State) (k : NoticeKey) :
    s.raise k = { s with notices := (s.raise k).notices } := by
  unfold State.raise; split <;> rfl

@[simp] theorem State.raise_rest (s : State) (k : NoticeKey) :
    (s.raise k).timeBase = s.timeBase ∧ (s.raise k).resetLow = s.resetLow ∧ (s.raise k).table = s.table ∧ (s.raise k).inputs = s.inputs ∧
    (s.raise k).domains = s.domains ∧ (s.raise k).composers = s.composers ∧ (s.raise k).links = s.links ∧ (s.raise k).port = s.port ∧
    (s.raise k).pending = s.pending ∧ (s.raise k).choiceCount = s.choiceCount ∧ (∀ h, (s.raise k).record h = s.record h) ∧
    (∀ h, (s.raise k).placement h = s.placement h) ∧ (∀ i, (s.raise k).input i = s.input i) ∧ (∀ r, (s.raise k).slot r = s.slot r) ∧
    (∀ d, (s.raise k).domain d = s.domain d) ∧ (∀ sc, (s.raise k).composer sc = s.composer sc) ∧
    (∀ sc, (s.raise k).link sc = s.link sc) := by
  rw [State.raise_frame]; exact ⟨rfl, rfl, rfl, rfl, rfl, rfl, rfl, rfl, rfl, rfl, fun _ => rfl, fun _ => rfl, fun _ => rfl, fun _ => rfl, fun _ => rfl, fun _ => rfl, fun _ => rfl⟩

theorem State.raiseSome_frame (s : State) (k : Option NoticeKey) :
    s.raiseSome k = { s with notices := (s.raiseSome k).notices } := by
  cases k <;> first | rfl | exact State.raise_frame s _

@[simp] theorem State.raiseSome_rest (s : State) (k : Option NoticeKey) :
    (s.raiseSome k).timeBase = s.timeBase ∧ (s.raiseSome k).resetLow = s.resetLow ∧ (s.raiseSome k).table = s.table ∧
    (s.raiseSome k).inputs = s.inputs ∧ (s.raiseSome k).domains = s.domains ∧ (s.raiseSome k).composers = s.composers ∧
    (s.raiseSome k).links = s.links ∧ (s.raiseSome k).port = s.port ∧ (s.raiseSome k).pending = s.pending ∧
    (s.raiseSome k).choiceCount = s.choiceCount ∧ (∀ h, (s.raiseSome k).record h = s.record h) ∧
    (∀ h, (s.raiseSome k).placement h = s.placement h) ∧ (∀ i, (s.raiseSome k).input i = s.input i) ∧
    (∀ r, (s.raiseSome k).slot r = s.slot r) ∧ (∀ d, (s.raiseSome k).domain d = s.domain d) ∧
    (∀ sc, (s.raiseSome k).composer sc = s.composer sc) ∧ (∀ sc, (s.raiseSome k).link sc = s.link sc) := by
  rw [State.raiseSome_frame]; exact ⟨rfl, rfl, rfl, rfl, rfl, rfl, rfl, rfl, rfl, rfl, fun _ => rfl, fun _ => rfl, fun _ => rfl, fun _ => rfl, fun _ => rfl, fun _ => rfl, fun _ => rfl⟩

theorem State.moveHolder_frame (s : State) (b a : Option SlotRef) :
    s.moveHolder b a = { s with inputs := (s.moveHolder b a).inputs } := by
  unfold State.moveHolder; split
  · rfl
  · cases a <;> cases b <;> rfl

@[simp] theorem State.moveHolder_rest (s : State) (b a : Option SlotRef) :
    (s.moveHolder b a).timeBase = s.timeBase ∧ (s.moveHolder b a).resetLow = s.resetLow ∧ (s.moveHolder b a).table = s.table ∧
    (s.moveHolder b a).domains = s.domains ∧ (s.moveHolder b a).composers = s.composers ∧ (s.moveHolder b a).links = s.links ∧
    (s.moveHolder b a).port = s.port ∧ (s.moveHolder b a).notices = s.notices ∧ (s.moveHolder b a).pending = s.pending ∧
    (s.moveHolder b a).choiceCount = s.choiceCount ∧ (∀ h, (s.moveHolder b a).record h = s.record h) ∧
    (∀ h, (s.moveHolder b a).placement h = s.placement h) ∧ (∀ d, (s.moveHolder b a).domain d = s.domain d) ∧
    (∀ sc, (s.moveHolder b a).composer sc = s.composer sc) ∧ (∀ sc, (s.moveHolder b a).link sc = s.link sc) := by
  rw [State.moveHolder_frame]; exact ⟨rfl, rfl, rfl, rfl, rfl, rfl, rfl, rfl, rfl, rfl, fun _ => rfl, fun _ => rfl, fun _ => rfl, fun _ => rfl, fun _ => rfl⟩

theorem State.setLatch_frame (s : State) (k : Handle) (a : Option SlotRef) :
    s.setLatch k a = { s with table := (s.setLatch k a).table, inputs := (s.setLatch k a).inputs } := by
  unfold State.setLatch; split <;> apply State.ext_fields <;> simp

@[simp] theorem State.setLatch_rest (s : State) (k : Handle) (a : Option SlotRef) :
    (s.setLatch k a).timeBase = s.timeBase ∧ (s.setLatch k a).resetLow = s.resetLow ∧ (s.setLatch k a).domains = s.domains ∧
    (s.setLatch k a).composers = s.composers ∧ (s.setLatch k a).links = s.links ∧ (s.setLatch k a).port = s.port ∧
    (s.setLatch k a).notices = s.notices ∧ (s.setLatch k a).pending = s.pending ∧ (s.setLatch k a).choiceCount = s.choiceCount ∧
    (∀ d, (s.setLatch k a).domain d = s.domain d) ∧ (∀ sc, (s.setLatch k a).composer sc = s.composer sc) ∧
    (∀ sc, (s.setLatch k a).link sc = s.link sc) := by
  rw [State.setLatch_frame]; exact ⟨rfl, rfl, rfl, rfl, rfl, rfl, rfl, rfl, rfl, fun _ => rfl, fun _ => rfl, fun _ => rfl⟩

theorem State.sourceChanged_frame (s : State) (k : Handle) :
    s.sourceChanged k = { s with table := (s.sourceChanged k).table, inputs := (s.sourceChanged k).inputs } := by
  unfold State.sourceChanged; apply State.ext_fields <;> simp

@[simp] theorem State.sourceChanged_rest (s : State) (k : Handle) :
    (s.sourceChanged k).timeBase = s.timeBase ∧ (s.sourceChanged k).resetLow = s.resetLow ∧ (s.sourceChanged k).domains = s.domains ∧
    (s.sourceChanged k).composers = s.composers ∧ (s.sourceChanged k).links = s.links ∧ (s.sourceChanged k).port = s.port ∧
    (s.sourceChanged k).notices = s.notices ∧ (s.sourceChanged k).pending = s.pending ∧ (s.sourceChanged k).choiceCount = s.choiceCount ∧
    (∀ d, (s.sourceChanged k).domain d = s.domain d) ∧ (∀ sc, (s.sourceChanged k).composer sc = s.composer sc) ∧
    (∀ sc, (s.sourceChanged k).link sc = s.link sc) := by
  rw [State.sourceChanged_frame]; exact ⟨rfl, rfl, rfl, rfl, rfl, rfl, rfl, rfl, rfl, fun _ => rfl, fun _ => rfl, fun _ => rfl⟩

theorem State.freeRecord_frame (s : State) (k : Handle) :
    s.freeRecord k = { s with table := (s.freeRecord k).table, inputs := (s.freeRecord k).inputs, notices := (s.freeRecord k).notices } := by
  unfold State.freeRecord; apply State.ext_fields <;> simp

@[simp] theorem State.freeRecord_rest (s : State) (k : Handle) :
    (s.freeRecord k).timeBase = s.timeBase ∧ (s.freeRecord k).resetLow = s.resetLow ∧ (s.freeRecord k).domains = s.domains ∧
    (s.freeRecord k).composers = s.composers ∧ (s.freeRecord k).links = s.links ∧ (s.freeRecord k).port = s.port ∧
    (s.freeRecord k).pending = s.pending ∧ (s.freeRecord k).choiceCount = s.choiceCount ∧ (∀ d, (s.freeRecord k).domain d = s.domain d) ∧
    (∀ sc, (s.freeRecord k).composer sc = s.composer sc) ∧ (∀ sc, (s.freeRecord k).link sc = s.link sc) := by
  rw [State.freeRecord_frame]; exact ⟨rfl, rfl, rfl, rfl, rfl, rfl, rfl, rfl, fun _ => rfl, fun _ => rfl, fun _ => rfl⟩

theorem State.enterHoldover_frame (s : State) (i : InputId) (d : Domain) :
    s.enterHoldover i d = { s with domains := (s.enterHoldover i d).domains, notices := (s.enterHoldover i d).notices } := by
  unfold State.enterHoldover; split <;> apply State.ext_fields <;> simp

theorem State.setMonitor_frame (s : State) (k : InputId) (m : MonitorState) :
    s.setMonitor k m = { s with inputs := (s.setMonitor k m).inputs, domains := (s.setMonitor k m).domains, notices := (s.setMonitor k m).notices } := by
  unfold State.setMonitor; dsimp only; split
  · rfl
  · split
    · exact foldl_keeps
        (P := fun t : State => t = { s with inputs := t.inputs, domains := t.domains, notices := t.notices }) _
        (by apply State.ext_fields <;> simp) fun b a h => by
          rw [State.enterHoldover_frame, h]
    · apply State.ext_fields <;> simp

@[simp] theorem State.setMonitor_rest (s : State) (k : InputId) (m : MonitorState) :
    (s.setMonitor k m).timeBase = s.timeBase ∧ (s.setMonitor k m).resetLow = s.resetLow ∧ (s.setMonitor k m).table = s.table ∧
    (s.setMonitor k m).composers = s.composers ∧ (s.setMonitor k m).links = s.links ∧ (s.setMonitor k m).port = s.port ∧
    (s.setMonitor k m).pending = s.pending ∧ (s.setMonitor k m).choiceCount = s.choiceCount ∧
    (∀ h, (s.setMonitor k m).record h = s.record h) ∧ (∀ h, (s.setMonitor k m).placement h = s.placement h) ∧
    (∀ sc, (s.setMonitor k m).composer sc = s.composer sc) ∧ (∀ sc, (s.setMonitor k m).link sc = s.link sc) := by
  rw [State.setMonitor_frame]; exact ⟨rfl, rfl, rfl, rfl, rfl, rfl, rfl, rfl, fun _ => rfl, fun _ => rfl, fun _ => rfl, fun _ => rfl⟩

theorem State.goodFrame_frame (s : State) (k : InputId) :
    s.goodFrame k = { s with inputs := (s.goodFrame k).inputs, domains := (s.goodFrame k).domains, notices := (s.goodFrame k).notices } := by
  unfold State.goodFrame; dsimp only; split <;> (try split) <;> apply State.ext_fields <;> simp

@[simp] theorem State.goodFrame_rest (s : State) (k : InputId) :
    (s.goodFrame k).timeBase = s.timeBase ∧ (s.goodFrame k).resetLow = s.resetLow ∧ (s.goodFrame k).table = s.table ∧
    (s.goodFrame k).composers = s.composers ∧ (s.goodFrame k).links = s.links ∧ (s.goodFrame k).port = s.port ∧
    (s.goodFrame k).pending = s.pending ∧ (s.goodFrame k).choiceCount = s.choiceCount ∧ (∀ h, (s.goodFrame k).record h = s.record h) ∧
    (∀ h, (s.goodFrame k).placement h = s.placement h) ∧ (∀ sc, (s.goodFrame k).composer sc = s.composer sc) ∧
    (∀ sc, (s.goodFrame k).link sc = s.link sc) := by
  rw [State.goodFrame_frame]; exact ⟨rfl, rfl, rfl, rfl, rfl, rfl, rfl, rfl, fun _ => rfl, fun _ => rfl, fun _ => rfl, fun _ => rfl⟩

theorem State.badFrame_frame (s : State) (k : InputId) :
    s.badFrame k = { s with inputs := (s.badFrame k).inputs, domains := (s.badFrame k).domains, notices := (s.badFrame k).notices } := by
  unfold State.badFrame; dsimp only; split <;> (try split) <;> apply State.ext_fields <;> simp

@[simp] theorem State.badFrame_rest (s : State) (k : InputId) :
    (s.badFrame k).timeBase = s.timeBase ∧ (s.badFrame k).resetLow = s.resetLow ∧ (s.badFrame k).table = s.table ∧
    (s.badFrame k).composers = s.composers ∧ (s.badFrame k).links = s.links ∧ (s.badFrame k).port = s.port ∧
    (s.badFrame k).pending = s.pending ∧ (s.badFrame k).choiceCount = s.choiceCount ∧ (∀ h, (s.badFrame k).record h = s.record h) ∧
    (∀ h, (s.badFrame k).placement h = s.placement h) ∧ (∀ sc, (s.badFrame k).composer sc = s.composer sc) ∧
    (∀ sc, (s.badFrame k).link sc = s.link sc) := by
  rw [State.badFrame_frame]; exact ⟨rfl, rfl, rfl, rfl, rfl, rfl, rfl, rfl, fun _ => rfl, fun _ => rfl, fun _ => rfl, fun _ => rfl⟩

theorem State.judge_frame (s : State) (k : InputId) (g : Bool) :
    s.judge k g = { s with inputs := (s.judge k g).inputs, domains := (s.judge k g).domains, notices := (s.judge k g).notices } := by
  cases g
  · exact State.badFrame_frame s k
  · exact State.goodFrame_frame s k

@[simp] theorem State.judge_rest (s : State) (k : InputId) (g : Bool) :
    (s.judge k g).timeBase = s.timeBase ∧ (s.judge k g).resetLow = s.resetLow ∧ (s.judge k g).table = s.table ∧
    (s.judge k g).composers = s.composers ∧ (s.judge k g).links = s.links ∧ (s.judge k g).port = s.port ∧
    (s.judge k g).pending = s.pending ∧ (s.judge k g).choiceCount = s.choiceCount ∧ (∀ h, (s.judge k g).record h = s.record h) ∧
    (∀ h, (s.judge k g).placement h = s.placement h) ∧ (∀ sc, (s.judge k g).composer sc = s.composer sc) ∧
    (∀ sc, (s.judge k g).link sc = s.link sc) := by
  rw [State.judge_frame]; exact ⟨rfl, rfl, rfl, rfl, rfl, rfl, rfl, rfl, fun _ => rfl, fun _ => rfl, fun _ => rfl, fun _ => rfl⟩

theorem State.endFrame_frame (s : State) (k : InputId) (f : OpenFrame) (g : Bool) :
    s.endFrame k f g = { s with inputs := (s.endFrame k f g).inputs, domains := (s.endFrame k f g).domains, notices := (s.endFrame k f g).notices } := by
  unfold State.endFrame; apply State.ext_fields <;> simp

@[simp] theorem State.endFrame_rest (s : State) (k : InputId) (f : OpenFrame) (g : Bool) :
    (s.endFrame k f g).timeBase = s.timeBase ∧ (s.endFrame k f g).resetLow = s.resetLow ∧ (s.endFrame k f g).table = s.table ∧
    (s.endFrame k f g).composers = s.composers ∧ (s.endFrame k f g).links = s.links ∧ (s.endFrame k f g).port = s.port ∧
    (s.endFrame k f g).pending = s.pending ∧ (s.endFrame k f g).choiceCount = s.choiceCount ∧
    (∀ h, (s.endFrame k f g).record h = s.record h) ∧ (∀ h, (s.endFrame k f g).placement h = s.placement h) ∧
    (∀ sc, (s.endFrame k f g).composer sc = s.composer sc) ∧ (∀ sc, (s.endFrame k f g).link sc = s.link sc) := by
  rw [State.endFrame_frame]; exact ⟨rfl, rfl, rfl, rfl, rfl, rfl, rfl, rfl, fun _ => rfl, fun _ => rfl, fun _ => rfl, fun _ => rfl⟩

theorem State.restartSource_frame (s : State) (k : InputId) :
    s.restartSource k = { s with inputs := (s.restartSource k).inputs, domains := (s.restartSource k).domains, notices := (s.restartSource k).notices } := by
  unfold State.restartSource; apply State.ext_fields <;> simp

@[simp] theorem State.restartSource_rest (s : State) (k : InputId) :
    (s.restartSource k).timeBase = s.timeBase ∧ (s.restartSource k).resetLow = s.resetLow ∧ (s.restartSource k).table = s.table ∧
    (s.restartSource k).composers = s.composers ∧ (s.restartSource k).links = s.links ∧ (s.restartSource k).port = s.port ∧
    (s.restartSource k).pending = s.pending ∧ (s.restartSource k).choiceCount = s.choiceCount ∧
    (∀ h, (s.restartSource k).record h = s.record h) ∧ (∀ h, (s.restartSource k).placement h = s.placement h) ∧
    (∀ sc, (s.restartSource k).composer sc = s.composer sc) ∧ (∀ sc, (s.restartSource k).link sc = s.link sc) := by
  rw [State.restartSource_frame]; exact ⟨rfl, rfl, rfl, rfl, rfl, rfl, rfl, rfl, fun _ => rfl, fun _ => rfl, fun _ => rfl, fun _ => rfl⟩

theorem State.changeLink_frame (s : State) (k : Screen) (f : LinkContext → LinkContext) :
    s.changeLink k f = { s with links := (s.changeLink k f).links, notices := (s.changeLink k f).notices } := by
  unfold State.changeLink; dsimp only; split <;> apply State.ext_fields <;> simp

@[simp] theorem State.changeLink_rest (s : State) (k : Screen) (f : LinkContext → LinkContext) :
    (s.changeLink k f).timeBase = s.timeBase ∧ (s.changeLink k f).resetLow = s.resetLow ∧ (s.changeLink k f).table = s.table ∧
    (s.changeLink k f).inputs = s.inputs ∧ (s.changeLink k f).domains = s.domains ∧ (s.changeLink k f).composers = s.composers ∧
    (s.changeLink k f).port = s.port ∧ (s.changeLink k f).pending = s.pending ∧ (s.changeLink k f).choiceCount = s.choiceCount ∧
    (∀ h, (s.changeLink k f).record h = s.record h) ∧ (∀ h, (s.changeLink k f).placement h = s.placement h) ∧
    (∀ i, (s.changeLink k f).input i = s.input i) ∧ (∀ r, (s.changeLink k f).slot r = s.slot r) ∧
    (∀ d, (s.changeLink k f).domain d = s.domain d) ∧ (∀ sc, (s.changeLink k f).composer sc = s.composer sc) := by
  rw [State.changeLink_frame]; exact ⟨rfl, rfl, rfl, rfl, rfl, rfl, rfl, rfl, rfl, fun _ => rfl, fun _ => rfl, fun _ => rfl, fun _ => rfl, fun _ => rfl, fun _ => rfl⟩

theorem State.endEarly_frame (s : State) (k : InputId) :
    s.endEarly k = { s with inputs := (s.endEarly k).inputs, domains := (s.endEarly k).domains, notices := (s.endEarly k).notices } := by
  unfold State.endEarly; split <;> apply State.ext_fields <;> simp

@[simp] theorem State.endEarly_rest (s : State) (k : InputId) :
    (s.endEarly k).timeBase = s.timeBase ∧ (s.endEarly k).resetLow = s.resetLow ∧ (s.endEarly k).table = s.table ∧
    (s.endEarly k).composers = s.composers ∧ (s.endEarly k).links = s.links ∧ (s.endEarly k).port = s.port ∧
    (s.endEarly k).pending = s.pending ∧ (s.endEarly k).choiceCount = s.choiceCount ∧ (∀ h, (s.endEarly k).record h = s.record h) ∧
    (∀ h, (s.endEarly k).placement h = s.placement h) ∧ (∀ sc, (s.endEarly k).composer sc = s.composer sc) ∧
    (∀ sc, (s.endEarly k).link sc = s.link sc) := by
  rw [State.endEarly_frame]; exact ⟨rfl, rfl, rfl, rfl, rfl, rfl, rfl, rfl, fun _ => rfl, fun _ => rfl, fun _ => rfl, fun _ => rfl⟩

theorem State.openInput_frame (s : State) (k : InputId) (g : Half) :
    s.openInput k g = { s with inputs := (s.openInput k g).inputs, notices := (s.openInput k g).notices } := by
  unfold State.openInput; dsimp only; split <;> apply State.ext_fields <;> simp

@[simp] theorem State.openInput_rest (s : State) (k : InputId) (g : Half) :
    (s.openInput k g).timeBase = s.timeBase ∧ (s.openInput k g).resetLow = s.resetLow ∧ (s.openInput k g).table = s.table ∧
    (s.openInput k g).domains = s.domains ∧ (s.openInput k g).composers = s.composers ∧ (s.openInput k g).links = s.links ∧
    (s.openInput k g).port = s.port ∧ (s.openInput k g).pending = s.pending ∧ (s.openInput k g).choiceCount = s.choiceCount ∧
    (∀ h, (s.openInput k g).record h = s.record h) ∧ (∀ h, (s.openInput k g).placement h = s.placement h) ∧
    (∀ d, (s.openInput k g).domain d = s.domain d) ∧ (∀ sc, (s.openInput k g).composer sc = s.composer sc) ∧
    (∀ sc, (s.openInput k g).link sc = s.link sc) := by
  rw [State.openInput_frame]; exact ⟨rfl, rfl, rfl, rfl, rfl, rfl, rfl, rfl, rfl, fun _ => rfl, fun _ => rfl, fun _ => rfl, fun _ => rfl, fun _ => rfl⟩

theorem State.firstFrame_frame (s : State) (k : InputId) :
    s.firstFrame k = { s with inputs := (s.firstFrame k).inputs, domains := (s.firstFrame k).domains, notices := (s.firstFrame k).notices } := by
  unfold State.firstFrame; split <;> apply State.ext_fields <;> simp

@[simp] theorem State.firstFrame_rest (s : State) (k : InputId) :
    (s.firstFrame k).timeBase = s.timeBase ∧ (s.firstFrame k).resetLow = s.resetLow ∧ (s.firstFrame k).table = s.table ∧
    (s.firstFrame k).composers = s.composers ∧ (s.firstFrame k).links = s.links ∧ (s.firstFrame k).port = s.port ∧
    (s.firstFrame k).pending = s.pending ∧ (s.firstFrame k).choiceCount = s.choiceCount ∧ (∀ h, (s.firstFrame k).record h = s.record h) ∧
    (∀ h, (s.firstFrame k).placement h = s.placement h) ∧ (∀ sc, (s.firstFrame k).composer sc = s.composer sc) ∧
    (∀ sc, (s.firstFrame k).link sc = s.link sc) := by
  rw [State.firstFrame_frame]; exact ⟨rfl, rfl, rfl, rfl, rfl, rfl, rfl, rfl, fun _ => rfl, fun _ => rfl, fun _ => rfl, fun _ => rfl⟩

theorem State.expire_frame (s : State) (k : InputId) :
    s.expire k = { s with inputs := (s.expire k).inputs, domains := (s.expire k).domains, notices := (s.expire k).notices } := by
  unfold State.expire; dsimp only; split <;> apply State.ext_fields <;> simp

@[simp] theorem State.expire_rest (s : State) (k : InputId) :
    (s.expire k).timeBase = s.timeBase ∧ (s.expire k).resetLow = s.resetLow ∧ (s.expire k).table = s.table ∧
    (s.expire k).composers = s.composers ∧ (s.expire k).links = s.links ∧ (s.expire k).port = s.port ∧ (s.expire k).pending = s.pending ∧
    (s.expire k).choiceCount = s.choiceCount ∧ (∀ h, (s.expire k).record h = s.record h) ∧
    (∀ h, (s.expire k).placement h = s.placement h) ∧ (∀ sc, (s.expire k).composer sc = s.composer sc) ∧
    (∀ sc, (s.expire k).link sc = s.link sc) := by
  rw [State.expire_frame]; exact ⟨rfl, rfl, rfl, rfl, rfl, rfl, rfl, rfl, fun _ => rfl, fun _ => rfl, fun _ => rfl, fun _ => rfl⟩

theorem State.arm_frame (s : State) (l : List Screen) :
    s.arm l = { s with table := (s.arm l).table } := by
  have key : ∀ (hs : List Handle) (t : State), t = { s with table := t.table } →
      hs.foldl (fun t h => t.modPlacement h (armRecord l)) t = { s with table := (hs.foldl (fun t h => t.modPlacement h (armRecord l)) t).table } := by
    intro hs
    induction hs with
    | nil => intro t h; exact h
    | cons h hs ih => intro t ht; exact ih _ (by dsimp only; rw [State.modPlacement_frame, ht])
  exact key allHandles s rfl

@[simp] theorem State.arm_rest (s : State) (l : List Screen) :
    (s.arm l).timeBase = s.timeBase ∧ (s.arm l).resetLow = s.resetLow ∧ (s.arm l).inputs = s.inputs ∧ (s.arm l).domains = s.domains ∧
    (s.arm l).composers = s.composers ∧ (s.arm l).links = s.links ∧ (s.arm l).port = s.port ∧ (s.arm l).notices = s.notices ∧
    (s.arm l).pending = s.pending ∧ (s.arm l).choiceCount = s.choiceCount ∧ (∀ i, (s.arm l).input i = s.input i) ∧
    (∀ r, (s.arm l).slot r = s.slot r) ∧ (∀ d, (s.arm l).domain d = s.domain d) ∧ (∀ sc, (s.arm l).composer sc = s.composer sc) ∧
    (∀ sc, (s.arm l).link sc = s.link sc) := by
  rw [State.arm_frame]; simp; exact fun _ => rfl

theorem State.applyRecord_frame (s : State) (n : Nat) (k : Handle) :
    State.applyRecord n s k = { s with table := (State.applyRecord n s k).table, inputs := (State.applyRecord n s k).inputs, notices := (State.applyRecord n s k).notices } := by
  unfold State.applyRecord; dsimp only; split
  · rfl
  · split
    · exact State.freeRecord_frame s k
    · split
      · apply State.ext_fields <;> simp
      · split <;> apply State.ext_fields <;> simp

theorem State.renumber_frame (s : State) (n : Nat) (l : List Handle) : s.renumber n l = { s with table := (s.renumber n l).table } := by
  induction l generalizing s n with
  | nil => rfl
  | cons h hs ih => rw [State.renumber, ih]; apply State.ext_fields <;> simp

theorem State.applyArmed_frame (s : State) (k : Screen) (n : Nat) :
    s.applyArmed k n = { s with table := (s.applyArmed k n).table, inputs := (s.applyArmed k n).inputs, composers := (s.applyArmed k n).composers, notices := (s.applyArmed k n).notices } := by
  unfold State.applyArmed; split
  · rfl
  · have h := fun armed => foldl_keeps (P := fun t : State => t = { s with table := t.table, inputs := t.inputs, notices := t.notices })
      (f := State.applyRecord n) (b := s) armed rfl fun b a h => by rw [State.applyRecord_frame, h]
    dsimp only
    rw [State.renumber_frame, h]
    apply State.ext_fields <;> simp

@[simp] theorem State.applyArmed_rest (s : State) (k : Screen) (n : Nat) :
    (s.applyArmed k n).timeBase = s.timeBase ∧ (s.applyArmed k n).resetLow = s.resetLow ∧ (s.applyArmed k n).domains = s.domains ∧
    (s.applyArmed k n).links = s.links ∧ (s.applyArmed k n).port = s.port ∧ (s.applyArmed k n).pending = s.pending ∧
    (s.applyArmed k n).choiceCount = s.choiceCount ∧ (∀ d, (s.applyArmed k n).domain d = s.domain d) ∧
    (∀ sc, (s.applyArmed k n).link sc = s.link sc) := by
  rw [State.applyArmed_frame]; exact ⟨rfl, rfl, rfl, rfl, rfl, rfl, rfl, fun _ => rfl, fun _ => rfl⟩

theorem State.applyChoice_frame (s : State) (k : Screen) (h : Handle) (m : Image) (i : InputId) :
    s.applyChoice k h m i = { s with table := (s.applyChoice k h m i).table, inputs := (s.applyChoice k h m i).inputs, notices := (s.applyChoice k h m i).notices } := by
  unfold State.applyChoice; dsimp only; split <;> apply State.ext_fields <;> simp

@[simp] theorem State.applyChoice_rest (s : State) (k : Screen) (h : Handle) (m : Image) (i : InputId) :
    (s.applyChoice k h m i).timeBase = s.timeBase ∧ (s.applyChoice k h m i).resetLow = s.resetLow ∧
    (s.applyChoice k h m i).domains = s.domains ∧ (s.applyChoice k h m i).composers = s.composers ∧
    (s.applyChoice k h m i).links = s.links ∧ (s.applyChoice k h m i).port = s.port ∧ (s.applyChoice k h m i).pending = s.pending ∧
    (s.applyChoice k h m i).choiceCount = s.choiceCount ∧ (∀ d, (s.applyChoice k h m i).domain d = s.domain d) ∧
    (∀ sc, (s.applyChoice k h m i).composer sc = s.composer sc) ∧ (∀ sc, (s.applyChoice k h m i).link sc = s.link sc) := by
  rw [State.applyChoice_frame]; exact ⟨rfl, rfl, rfl, rfl, rfl, rfl, rfl, rfl, fun _ => rfl, fun _ => rfl, fun _ => rfl⟩

theorem State.takeChoice_frame (s : State) (k : Screen) :
    s.takeChoice k = { s with table := (s.takeChoice k).table, inputs := (s.takeChoice k).inputs, links := (s.takeChoice k).links, notices := (s.takeChoice k).notices } := by
  unfold State.takeChoice; dsimp only; split
  · split
    · rfl
    · split <;> apply State.ext_fields <;> simp
  · rfl

@[simp] theorem State.takeChoice_rest (s : State) (k : Screen) :
    (s.takeChoice k).timeBase = s.timeBase ∧ (s.takeChoice k).resetLow = s.resetLow ∧ (s.takeChoice k).domains = s.domains ∧
    (s.takeChoice k).composers = s.composers ∧ (s.takeChoice k).port = s.port ∧ (s.takeChoice k).pending = s.pending ∧
    (s.takeChoice k).choiceCount = s.choiceCount ∧ (∀ d, (s.takeChoice k).domain d = s.domain d) ∧
    (∀ sc, (s.takeChoice k).composer sc = s.composer sc) := by
  rw [State.takeChoice_frame]; exact ⟨rfl, rfl, rfl, rfl, rfl, rfl, rfl, fun _ => rfl, fun _ => rfl⟩

theorem State.takeFreeze_frame (s : State) (k : Handle) :
    s.takeFreeze k = { s with table := (s.takeFreeze k).table, inputs := (s.takeFreeze k).inputs } := by
  unfold State.takeFreeze; dsimp only; split
  · rfl
  · split
    · rfl
    · apply State.ext_fields <;> simp
    · split <;> apply State.ext_fields <;> simp

@[simp] theorem State.takeFreeze_rest (s : State) (k : Handle) :
    (s.takeFreeze k).timeBase = s.timeBase ∧ (s.takeFreeze k).resetLow = s.resetLow ∧ (s.takeFreeze k).domains = s.domains ∧
    (s.takeFreeze k).composers = s.composers ∧ (s.takeFreeze k).links = s.links ∧ (s.takeFreeze k).port = s.port ∧
    (s.takeFreeze k).notices = s.notices ∧ (s.takeFreeze k).pending = s.pending ∧ (s.takeFreeze k).choiceCount = s.choiceCount ∧
    (∀ d, (s.takeFreeze k).domain d = s.domain d) ∧ (∀ sc, (s.takeFreeze k).composer sc = s.composer sc) ∧
    (∀ sc, (s.takeFreeze k).link sc = s.link sc) := by
  rw [State.takeFreeze_frame]; exact ⟨rfl, rfl, rfl, rfl, rfl, rfl, rfl, rfl, rfl, fun _ => rfl, fun _ => rfl, fun _ => rfl⟩

theorem State.takeFreezes_frame (s : State) (k : Screen) :
    s.takeFreezes k = { s with table := (s.takeFreezes k).table, inputs := (s.takeFreezes k).inputs } := by
  unfold State.takeFreezes; exact foldl_keeps (P := fun t : State => t = { s with table := t.table, inputs := t.inputs }) _ rfl fun b a h => by
    rw [h]; apply State.ext_fields <;> simp

@[simp] theorem State.takeFreezes_rest (s : State) (k : Screen) :
    (s.takeFreezes k).timeBase = s.timeBase ∧ (s.takeFreezes k).resetLow = s.resetLow ∧ (s.takeFreezes k).domains = s.domains ∧
    (s.takeFreezes k).composers = s.composers ∧ (s.takeFreezes k).links = s.links ∧ (s.takeFreezes k).port = s.port ∧
    (s.takeFreezes k).notices = s.notices ∧ (s.takeFreezes k).pending = s.pending ∧ (s.takeFreezes k).choiceCount = s.choiceCount ∧
    (∀ d, (s.takeFreezes k).domain d = s.domain d) ∧ (∀ sc, (s.takeFreezes k).composer sc = s.composer sc) ∧
    (∀ sc, (s.takeFreezes k).link sc = s.link sc) := by
  rw [State.takeFreezes_frame]; exact ⟨rfl, rfl, rfl, rfl, rfl, rfl, rfl, rfl, rfl, fun _ => rfl, fun _ => rfl, fun _ => rfl⟩

theorem State.takeTone_frame (s : State) (k : Screen) :
    s.takeTone k = { s with composers := (s.takeTone k).composers } := by
  rfl

@[simp] theorem State.takeTone_rest (s : State) (k : Screen) :
    (s.takeTone k).timeBase = s.timeBase ∧ (s.takeTone k).resetLow = s.resetLow ∧ (s.takeTone k).table = s.table ∧
    (s.takeTone k).inputs = s.inputs ∧ (s.takeTone k).domains = s.domains ∧ (s.takeTone k).links = s.links ∧
    (s.takeTone k).port = s.port ∧ (s.takeTone k).notices = s.notices ∧ (s.takeTone k).pending = s.pending ∧
    (s.takeTone k).choiceCount = s.choiceCount ∧ (∀ h, (s.takeTone k).record h = s.record h) ∧
    (∀ h, (s.takeTone k).placement h = s.placement h) ∧ (∀ i, (s.takeTone k).input i = s.input i) ∧
    (∀ r, (s.takeTone k).slot r = s.slot r) ∧ (∀ d, (s.takeTone k).domain d = s.domain d) ∧
    (∀ sc, (s.takeTone k).link sc = s.link sc) := by
  rw [State.takeTone_frame]; exact ⟨rfl, rfl, rfl, rfl, rfl, rfl, rfl, rfl, rfl, rfl, fun _ => rfl, fun _ => rfl, fun _ => rfl, fun _ => rfl, fun _ => rfl, fun _ => rfl⟩

theorem State.writeDecision_frame (s : State) (k : Handle) (p : Placement) (d : Decision) :
    s.writeDecision k p d = { s with table := (s.writeDecision k p d).table, inputs := (s.writeDecision k p d).inputs, notices := (s.writeDecision k p d).notices } := by
  unfold State.writeDecision; apply State.ext_fields <;> simp

@[simp] theorem State.writeDecision_rest (s : State) (k : Handle) (p : Placement) (d : Decision) :
    (s.writeDecision k p d).timeBase = s.timeBase ∧ (s.writeDecision k p d).resetLow = s.resetLow ∧
    (s.writeDecision k p d).domains = s.domains ∧ (s.writeDecision k p d).composers = s.composers ∧
    (s.writeDecision k p d).links = s.links ∧ (s.writeDecision k p d).port = s.port ∧ (s.writeDecision k p d).pending = s.pending ∧
    (s.writeDecision k p d).choiceCount = s.choiceCount ∧ (∀ e, (s.writeDecision k p d).domain e = s.domain e) ∧
    (∀ sc, (s.writeDecision k p d).composer sc = s.composer sc) ∧ (∀ sc, (s.writeDecision k p d).link sc = s.link sc) := by
  rw [State.writeDecision_frame]; exact ⟨rfl, rfl, rfl, rfl, rfl, rfl, rfl, rfl, fun _ => rfl, fun _ => rfl, fun _ => rfl⟩

theorem State.decideView_frame (s : State) (k : Handle) :
    s.decideView k = { s with table := (s.decideView k).table, inputs := (s.decideView k).inputs, notices := (s.decideView k).notices } := by
  unfold State.decideView; split
  · rfl
  · split
    · rfl
    · exact State.writeDecision_frame s k _ _

@[simp] theorem State.decideView_rest (s : State) (k : Handle) :
    (s.decideView k).timeBase = s.timeBase ∧ (s.decideView k).resetLow = s.resetLow ∧ (s.decideView k).domains = s.domains ∧
    (s.decideView k).composers = s.composers ∧ (s.decideView k).links = s.links ∧ (s.decideView k).port = s.port ∧
    (s.decideView k).pending = s.pending ∧ (s.decideView k).choiceCount = s.choiceCount ∧ (∀ d, (s.decideView k).domain d = s.domain d) ∧
    (∀ sc, (s.decideView k).composer sc = s.composer sc) ∧ (∀ sc, (s.decideView k).link sc = s.link sc) := by
  rw [State.decideView_frame]; exact ⟨rfl, rfl, rfl, rfl, rfl, rfl, rfl, rfl, fun _ => rfl, fun _ => rfl, fun _ => rfl⟩

theorem State.decideViews_frame (s : State) (k : Screen) :
    s.decideViews k = { s with table := (s.decideViews k).table, inputs := (s.decideViews k).inputs, notices := (s.decideViews k).notices } := by
  unfold State.decideViews
  exact foldl_keeps (P := fun t : State => t = { s with table := t.table, inputs := t.inputs, notices := t.notices }) _ rfl fun b a h => by
    rw [h]; apply State.ext_fields <;> simp

@[simp] theorem State.decideViews_rest (s : State) (k : Screen) :
    (s.decideViews k).timeBase = s.timeBase ∧ (s.decideViews k).resetLow = s.resetLow ∧ (s.decideViews k).domains = s.domains ∧
    (s.decideViews k).composers = s.composers ∧ (s.decideViews k).links = s.links ∧ (s.decideViews k).port = s.port ∧
    (s.decideViews k).pending = s.pending ∧ (s.decideViews k).choiceCount = s.choiceCount ∧
    (∀ d, (s.decideViews k).domain d = s.domain d) ∧ (∀ sc, (s.decideViews k).composer sc = s.composer sc) ∧
    (∀ sc, (s.decideViews k).link sc = s.link sc) := by
  rw [State.decideViews_frame]; exact ⟨rfl, rfl, rfl, rfl, rfl, rfl, rfl, rfl, fun _ => rfl, fun _ => rfl, fun _ => rfl⟩

theorem State.beginComposition_frame (s : State) (k : Screen) (n : Nat) :
    s.beginComposition k n = { s with composers := (s.beginComposition k n).composers } := by
  rfl

@[simp] theorem State.beginComposition_rest (s : State) (k : Screen) (n : Nat) :
    (s.beginComposition k n).timeBase = s.timeBase ∧ (s.beginComposition k n).resetLow = s.resetLow ∧
    (s.beginComposition k n).table = s.table ∧ (s.beginComposition k n).inputs = s.inputs ∧ (s.beginComposition k n).domains = s.domains ∧
    (s.beginComposition k n).links = s.links ∧ (s.beginComposition k n).port = s.port ∧ (s.beginComposition k n).notices = s.notices ∧
    (s.beginComposition k n).pending = s.pending ∧ (s.beginComposition k n).choiceCount = s.choiceCount ∧
    (∀ h, (s.beginComposition k n).record h = s.record h) ∧ (∀ h, (s.beginComposition k n).placement h = s.placement h) ∧
    (∀ i, (s.beginComposition k n).input i = s.input i) ∧ (∀ r, (s.beginComposition k n).slot r = s.slot r) ∧
    (∀ d, (s.beginComposition k n).domain d = s.domain d) ∧ (∀ sc, (s.beginComposition k n).link sc = s.link sc) := by
  rw [State.beginComposition_frame]; exact ⟨rfl, rfl, rfl, rfl, rfl, rfl, rfl, rfl, rfl, rfl, fun _ => rfl, fun _ => rfl, fun _ => rfl, fun _ => rfl, fun _ => rfl, fun _ => rfl⟩

theorem State.composerStart_frame (s : State) (k : Screen) (n : Nat) :
    s.composerStart k n = { s with table := (s.composerStart k n).table, inputs := (s.composerStart k n).inputs, composers := (s.composerStart k n).composers, links := (s.composerStart k n).links, notices := (s.composerStart k n).notices } := by
  unfold State.composerStart; apply State.ext_fields <;> simp

@[simp] theorem State.composerStart_rest (s : State) (k : Screen) (n : Nat) :
    (s.composerStart k n).timeBase = s.timeBase ∧ (s.composerStart k n).resetLow = s.resetLow ∧
    (s.composerStart k n).domains = s.domains ∧ (s.composerStart k n).port = s.port ∧ (s.composerStart k n).pending = s.pending ∧
    (s.composerStart k n).choiceCount = s.choiceCount ∧ (∀ d, (s.composerStart k n).domain d = s.domain d) := by
  rw [State.composerStart_frame]; exact ⟨rfl, rfl, rfl, rfl, rfl, rfl, fun _ => rfl⟩

theorem State.takeSettings_frame (s : State) (k : Domain) :
    s.takeSettings k = { s with domains := (s.takeSettings k).domains, notices := (s.takeSettings k).notices } := by
  unfold State.takeSettings; dsimp only; split <;> apply State.ext_fields <;> simp

@[simp] theorem State.takeSettings_rest (s : State) (k : Domain) :
    (s.takeSettings k).timeBase = s.timeBase ∧ (s.takeSettings k).resetLow = s.resetLow ∧ (s.takeSettings k).table = s.table ∧
    (s.takeSettings k).inputs = s.inputs ∧ (s.takeSettings k).composers = s.composers ∧ (s.takeSettings k).links = s.links ∧
    (s.takeSettings k).port = s.port ∧ (s.takeSettings k).pending = s.pending ∧ (s.takeSettings k).choiceCount = s.choiceCount ∧
    (∀ h, (s.takeSettings k).record h = s.record h) ∧ (∀ h, (s.takeSettings k).placement h = s.placement h) ∧
    (∀ i, (s.takeSettings k).input i = s.input i) ∧ (∀ r, (s.takeSettings k).slot r = s.slot r) ∧
    (∀ sc, (s.takeSettings k).composer sc = s.composer sc) ∧ (∀ sc, (s.takeSettings k).link sc = s.link sc) := by
  rw [State.takeSettings_frame]; exact ⟨rfl, rfl, rfl, rfl, rfl, rfl, rfl, rfl, rfl, fun _ => rfl, fun _ => rfl, fun _ => rfl, fun _ => rfl, fun _ => rfl, fun _ => rfl⟩

theorem State.judgeSync_frame (s : State) (k : Domain) :
    s.judgeSync k = { s with domains := (s.judgeSync k).domains, notices := (s.judgeSync k).notices } := by
  unfold State.judgeSync; dsimp only; split <;> apply State.ext_fields <;> simp

@[simp] theorem State.judgeSync_rest (s : State) (k : Domain) :
    (s.judgeSync k).timeBase = s.timeBase ∧ (s.judgeSync k).resetLow = s.resetLow ∧ (s.judgeSync k).table = s.table ∧
    (s.judgeSync k).inputs = s.inputs ∧ (s.judgeSync k).composers = s.composers ∧ (s.judgeSync k).links = s.links ∧
    (s.judgeSync k).port = s.port ∧ (s.judgeSync k).pending = s.pending ∧ (s.judgeSync k).choiceCount = s.choiceCount ∧
    (∀ h, (s.judgeSync k).record h = s.record h) ∧ (∀ h, (s.judgeSync k).placement h = s.placement h) ∧
    (∀ i, (s.judgeSync k).input i = s.input i) ∧ (∀ r, (s.judgeSync k).slot r = s.slot r) ∧
    (∀ sc, (s.judgeSync k).composer sc = s.composer sc) ∧ (∀ sc, (s.judgeSync k).link sc = s.link sc) := by
  rw [State.judgeSync_frame]; exact ⟨rfl, rfl, rfl, rfl, rfl, rfl, rfl, rfl, rfl, fun _ => rfl, fun _ => rfl, fun _ => rfl, fun _ => rfl, fun _ => rfl, fun _ => rfl⟩

theorem State.advanceFrame_frame (s : State) (k : Domain) :
    s.advanceFrame k = { s with domains := (s.advanceFrame k).domains } := by
  rfl

@[simp] theorem State.advanceFrame_rest (s : State) (k : Domain) :
    (s.advanceFrame k).timeBase = s.timeBase ∧ (s.advanceFrame k).resetLow = s.resetLow ∧ (s.advanceFrame k).table = s.table ∧
    (s.advanceFrame k).inputs = s.inputs ∧ (s.advanceFrame k).composers = s.composers ∧ (s.advanceFrame k).links = s.links ∧
    (s.advanceFrame k).port = s.port ∧ (s.advanceFrame k).notices = s.notices ∧ (s.advanceFrame k).pending = s.pending ∧
    (s.advanceFrame k).choiceCount = s.choiceCount ∧ (∀ h, (s.advanceFrame k).record h = s.record h) ∧
    (∀ h, (s.advanceFrame k).placement h = s.placement h) ∧ (∀ i, (s.advanceFrame k).input i = s.input i) ∧
    (∀ r, (s.advanceFrame k).slot r = s.slot r) ∧ (∀ sc, (s.advanceFrame k).composer sc = s.composer sc) ∧
    (∀ sc, (s.advanceFrame k).link sc = s.link sc) := by
  rw [State.advanceFrame_frame]; exact ⟨rfl, rfl, rfl, rfl, rfl, rfl, rfl, rfl, rfl, rfl, fun _ => rfl, fun _ => rfl, fun _ => rfl, fun _ => rfl, fun _ => rfl, fun _ => rfl⟩

theorem State.schedule_frame (s : State) (k : Domain) :
    s.schedule k = { s with domains := (s.schedule k).domains } := by
  rfl

@[simp] theorem State.schedule_rest (s : State) (k : Domain) :
    (s.schedule k).timeBase = s.timeBase ∧ (s.schedule k).resetLow = s.resetLow ∧ (s.schedule k).table = s.table ∧
    (s.schedule k).inputs = s.inputs ∧ (s.schedule k).composers = s.composers ∧ (s.schedule k).links = s.links ∧
    (s.schedule k).port = s.port ∧ (s.schedule k).notices = s.notices ∧ (s.schedule k).pending = s.pending ∧
    (s.schedule k).choiceCount = s.choiceCount ∧ (∀ h, (s.schedule k).record h = s.record h) ∧
    (∀ h, (s.schedule k).placement h = s.placement h) ∧ (∀ i, (s.schedule k).input i = s.input i) ∧
    (∀ r, (s.schedule k).slot r = s.slot r) ∧ (∀ sc, (s.schedule k).composer sc = s.composer sc) ∧
    (∀ sc, (s.schedule k).link sc = s.link sc) := by
  rw [State.schedule_frame]; exact ⟨rfl, rfl, rfl, rfl, rfl, rfl, rfl, rfl, rfl, rfl, fun _ => rfl, fun _ => rfl, fun _ => rfl, fun _ => rfl, fun _ => rfl, fun _ => rfl⟩

theorem State.domainWork_frame (s : State) (k : Domain) :
    s.domainWork k = { s with domains := (s.domainWork k).domains, notices := (s.domainWork k).notices } := by
  unfold State.domainWork; apply State.ext_fields <;> simp

@[simp] theorem State.domainWork_rest (s : State) (k : Domain) :
    (s.domainWork k).timeBase = s.timeBase ∧ (s.domainWork k).resetLow = s.resetLow ∧ (s.domainWork k).table = s.table ∧
    (s.domainWork k).inputs = s.inputs ∧ (s.domainWork k).composers = s.composers ∧ (s.domainWork k).links = s.links ∧
    (s.domainWork k).port = s.port ∧ (s.domainWork k).pending = s.pending ∧ (s.domainWork k).choiceCount = s.choiceCount ∧
    (∀ h, (s.domainWork k).record h = s.record h) ∧ (∀ h, (s.domainWork k).placement h = s.placement h) ∧
    (∀ i, (s.domainWork k).input i = s.input i) ∧ (∀ r, (s.domainWork k).slot r = s.slot r) ∧
    (∀ sc, (s.domainWork k).composer sc = s.composer sc) ∧ (∀ sc, (s.domainWork k).link sc = s.link sc) := by
  rw [State.domainWork_frame]; exact ⟨rfl, rfl, rfl, rfl, rfl, rfl, rfl, rfl, rfl, fun _ => rfl, fun _ => rfl, fun _ => rfl, fun _ => rfl, fun _ => rfl, fun _ => rfl⟩

theorem State.linkStart_frame (s : State) (k : Screen) (n : Nat) :
    s.linkStart k n = { s with links := (s.linkStart k n).links, notices := (s.linkStart k n).notices } := by
  unfold State.linkStart; exact State.changeLink_frame s k _

@[simp] theorem State.linkStart_rest (s : State) (k : Screen) (n : Nat) :
    (s.linkStart k n).timeBase = s.timeBase ∧ (s.linkStart k n).resetLow = s.resetLow ∧ (s.linkStart k n).table = s.table ∧
    (s.linkStart k n).inputs = s.inputs ∧ (s.linkStart k n).domains = s.domains ∧ (s.linkStart k n).composers = s.composers ∧
    (s.linkStart k n).port = s.port ∧ (s.linkStart k n).pending = s.pending ∧ (s.linkStart k n).choiceCount = s.choiceCount ∧
    (∀ h, (s.linkStart k n).record h = s.record h) ∧ (∀ h, (s.linkStart k n).placement h = s.placement h) ∧
    (∀ i, (s.linkStart k n).input i = s.input i) ∧ (∀ r, (s.linkStart k n).slot r = s.slot r) ∧
    (∀ d, (s.linkStart k n).domain d = s.domain d) ∧ (∀ sc, (s.linkStart k n).composer sc = s.composer sc) := by
  rw [State.linkStart_frame]; exact ⟨rfl, rfl, rfl, rfl, rfl, rfl, rfl, rfl, rfl, fun _ => rfl, fun _ => rfl, fun _ => rfl, fun _ => rfl, fun _ => rfl, fun _ => rfl⟩

theorem State.handFrameStart_frame (s : State) (k : Domain) :
    s.handFrameStart k = { s with table := (s.handFrameStart k).table, inputs := (s.handFrameStart k).inputs, composers := (s.handFrameStart k).composers, links := (s.handFrameStart k).links, notices := (s.handFrameStart k).notices } := by
  unfold State.handFrameStart; apply State.ext_fields <;> simp

@[simp] theorem State.handFrameStart_rest (s : State) (k : Domain) :
    (s.handFrameStart k).timeBase = s.timeBase ∧ (s.handFrameStart k).resetLow = s.resetLow ∧ (s.handFrameStart k).domains = s.domains ∧
    (s.handFrameStart k).port = s.port ∧ (s.handFrameStart k).pending = s.pending ∧ (s.handFrameStart k).choiceCount = s.choiceCount ∧
    (∀ d, (s.handFrameStart k).domain d = s.domain d) := by
  rw [State.handFrameStart_frame]; exact ⟨rfl, rfl, rfl, rfl, rfl, rfl, fun _ => rfl⟩

theorem State.domainStart_frame (s : State) (k : Domain) :
    s.domainStart k = { s with table := (s.domainStart k).table, inputs := (s.domainStart k).inputs, domains := (s.domainStart k).domains, composers := (s.domainStart k).composers, links := (s.domainStart k).links, notices := (s.domainStart k).notices } := by
  unfold State.domainStart; apply State.ext_fields <;> simp

@[simp] theorem State.domainStart_rest (s : State) (k : Domain) :
    (s.domainStart k).timeBase = s.timeBase ∧ (s.domainStart k).resetLow = s.resetLow ∧ (s.domainStart k).port = s.port ∧
    (s.domainStart k).pending = s.pending ∧ (s.domainStart k).choiceCount = s.choiceCount := by
  rw [State.domainStart_frame]; exact ⟨rfl, rfl, rfl, rfl, rfl⟩

end Sys2Proof.Machine
end

