-- ==== Sys2Proof/Laws/Meanings.lean ====
section
/-! SUPPORT. What each meaning leaves: one lemma per row of the opcode table that says which parts of the state the row can change at all. Every
row answers a next state (`exec_next`), and while RESETn is held low only its release has an effect. -/

namespace Sys2Proof.Machine

/-- What `whileRunning` answers. -/
theorem whileRunning_eq (s : State) (f : State → State) : whileRunning s f = .next (if s.resetLow then s else f s) := by
  unfold whileRunning; split <;> rfl

/-- A property of the state before and of the effect is a property of the next state. -/
theorem whileRunning_next {s t : State} {f : State → State} (P : State → Prop) (h : whileRunning s f = .next t) (h1 : P s)
    (h2 : P (f s)) : P t := by
  rw [whileRunning_eq] at h
  cases hr : s.resetLow <;> simp only [hr, Bool.false_eq_true, if_false, if_true, Host.Outcome.next.injEq] at h <;> subst h
  · exact h2
  · exact h1

theorem State.reportStarts_frame (s : State) (k : InputId) (l : List Domain) :
    l.foldl (State.reportStart k) s =
      { s with domains := (l.foldl (State.reportStart k) s).domains, notices := (l.foldl (State.reportStart k) s).notices } := by
  refine foldl_keeps (P := fun t : State => t = { s with domains := t.domains, notices := t.notices }) (b := s) l rfl fun b a h => ?_
  rw [h]
  unfold State.reportStart
  dsimp only
  split
  · rfl
  · split
    · split <;> apply State.ext_fields <;> simp
    · rfl

theorem State.disarm_frame (s : State) (l : List Handle) :
    l.foldl (fun s h => s.modPlacement h disarm) s = { s with table := (l.foldl (fun s h => s.modPlacement h disarm) s).table } := by
  refine foldl_keeps (P := fun t : State => t = { s with table := t.table }) (b := s) l rfl fun b a h => ?_
  rw [State.modPlacement_frame, h]

theorem execOpenPlacement_frame (screen cls selectable : Byte) (image : Option RawImage)
    {s t : State} (h : execOpenPlacement screen cls selectable image s = .next t) :
    t = { s with table := t.table, port := { s.port with buffer := t.port.buffer } } := by
  unfold execOpenPlacement at h
  refine whileRunning_next (fun t : State => t = { s with table := t.table, port := { s.port with buffer := t.port.buffer } }) h rfl ?_
  (try dsimp only); split <;> first | (apply State.ext_fields <;> simp; done) | skip
  all_goals (unfold State.openImage; (repeat' split) <;> apply State.ext_fields <;> simp)

theorem execAmend_frame (handle expected unconditional : Byte) (entries : Option (List RawField))
    {s t : State} (h : execAmend handle expected unconditional entries s = .next t) :
    t = { s with table := t.table, port := { s.port with buffer := t.port.buffer } } := by
  unfold execAmend at h
  refine whileRunning_next (fun t : State => t = { s with table := t.table, port := { s.port with buffer := t.port.buffer } }) h rfl ?_
  (try dsimp only); split <;> first | (apply State.ext_fields <;> simp; done) | skip
  all_goals (unfold State.amendRecord; (repeat' split) <;> apply State.ext_fields <;> simp)

theorem execRetire_frame (handle expected unconditional : Byte) {s t : State} (h : execRetire handle expected unconditional s = .next t) :
    t = { s with table := t.table, inputs := t.inputs, notices := t.notices, port := { s.port with buffer := t.port.buffer } } := by
  unfold execRetire at h
  refine whileRunning_next
    (fun t : State => t = { s with table := t.table, inputs := t.inputs, notices := t.notices, port := { s.port with buffer := t.port.buffer } }) h rfl ?_
  (try dsimp only); split <;> first | (apply State.ext_fields <;> simp; done) | skip
  all_goals (unfold State.retireRecord; dsimp only; (repeat' split) <;> apply State.ext_fields <;> simp)

theorem execCommit_frame (screens : Option (List Byte)) {s t : State} (h : execCommit screens s = .next t) :
    t = { s with table := t.table, port := { s.port with buffer := t.port.buffer } } := by
  unfold execCommit at h
  refine whileRunning_next (fun t : State => t = { s with table := t.table, port := { s.port with buffer := t.port.buffer } }) h rfl ?_
  (try dsimp only); split <;> first | (apply State.ext_fields <;> simp; done) | skip
  all_goals (unfold State.commitScreens; dsimp only; (repeat' split) <;> apply State.ext_fields <;> simp)

theorem execFreeze_frame (handle : Byte) {s t : State} (h : execFreeze handle s = .next t) :
    t = { s with table := t.table, port := { s.port with buffer := t.port.buffer } } := by
  unfold execFreeze at h
  refine whileRunning_next (fun t : State => t = { s with table := t.table, port := { s.port with buffer := t.port.buffer } }) h rfl ?_
  unfold State.requestFreeze; (repeat' split) <;> apply State.ext_fields <;> simp

theorem execThaw_frame (handle : Byte) {s t : State} (h : execThaw handle s = .next t) :
    t = { s with table := t.table, port := { s.port with buffer := t.port.buffer } } := by
  unfold execThaw at h
  refine whileRunning_next (fun t : State => t = { s with table := t.table, port := { s.port with buffer := t.port.buffer } }) h rfl ?_
  unfold State.requestFreeze; (repeat' split) <;> apply State.ext_fields <;> simp

theorem execLookup_frame (handle : Byte) {s t : State} (h : execLookup handle s = .next t) :
    t = { s with port := { s.port with buffer := t.port.buffer } } := by
  unfold execLookup at h
  refine whileRunning_next (fun t : State => t = { s with port := { s.port with buffer := t.port.buffer } }) h rfl ?_
  split <;> rfl

theorem execListScreen_frame (screen : Byte) {s t : State} (h : execListScreen screen s = .next t) :
    t = { s with port := { s.port with buffer := t.port.buffer } } := by
  unfold execListScreen at h
  refine whileRunning_next (fun t : State => t = { s with port := { s.port with buffer := t.port.buffer } }) h rfl ?_
  split <;> rfl

theorem execListSource_frame (input : Byte) {s t : State} (h : execListSource input s = .next t) :
    t = { s with port := { s.port with buffer := t.port.buffer } } := by
  unfold execListSource at h
  refine whileRunning_next (fun t : State => t = { s with port := { s.port with buffer := t.port.buffer } }) h rfl ?_
  split <;> rfl

theorem execSetSource_frame (input : Byte) (width height : Half) (depth : Byte) (period tolerance : Half) (lockCount lossCount : Byte)
    {s t : State} (h : execSetSource input width height depth period tolerance lockCount lossCount s = .next t) :
    t = { s with inputs := t.inputs, domains := t.domains, notices := t.notices, port := { s.port with buffer := t.port.buffer } } := by
  unfold execSetSource at h
  refine whileRunning_next
    (fun t : State => t = { s with inputs := t.inputs, domains := t.domains, notices := t.notices, port := { s.port with buffer := t.port.buffer } }) h rfl ?_
  (try dsimp only); split <;> first | (apply State.ext_fields <;> simp; done) | skip
  all_goals (unfold State.configureSource; (repeat' split) <;> apply State.ext_fields <;> simp)

theorem execResetSource_frame (input : Byte) {s t : State} (h : execResetSource input s = .next t) :
    t = { s with inputs := t.inputs, domains := t.domains, notices := t.notices, port := { s.port with buffer := t.port.buffer } } := by
  unfold execResetSource at h
  refine whileRunning_next
    (fun t : State => t = { s with inputs := t.inputs, domains := t.domains, notices := t.notices, port := { s.port with buffer := t.port.buffer } }) h rfl ?_
  (repeat' split) <;> apply State.ext_fields <;> simp

theorem execQuerySource_frame (input : Byte) {s t : State} (h : execQuerySource input s = .next t) :
    t = { s with port := { s.port with buffer := t.port.buffer } } := by
  unfold execQuerySource at h
  refine whileRunning_next (fun t : State => t = { s with port := { s.port with buffer := t.port.buffer } }) h rfl ?_
  split <;> rfl

theorem execSetScreen_frame (screen : Byte) (width height : Half) (depth threshold : Byte)
    {s t : State} (h : execSetScreen screen width height depth threshold s = .next t) :
    t = { s with links := t.links, port := { s.port with buffer := t.port.buffer } } := by
  unfold execSetScreen at h; unfold onScreenNamed at h
  refine whileRunning_next (fun t : State => t = { s with links := t.links, port := { s.port with buffer := t.port.buffer } }) h rfl ?_
  (try dsimp only); split <;> first | (apply State.ext_fields <;> simp; done) | skip
  all_goals (unfold State.configureScreen; (repeat' split) <;> apply State.ext_fields <;> simp)

theorem execSetScreenTone_frame (screen : Byte) (background : RawColour) (gain : Half)
    {s t : State} (h : execSetScreenTone screen background gain s = .next t) :
    t = { s with links := t.links, port := { s.port with buffer := t.port.buffer } } := by
  unfold execSetScreenTone at h; unfold onScreenNamed at h
  refine whileRunning_next (fun t : State => t = { s with links := t.links, port := { s.port with buffer := t.port.buffer } }) h rfl ?_
  split <;> rfl

theorem execEnableLink_frame (screen : Byte) {s t : State} (h : execEnableLink screen s = .next t) :
    t = { s with links := t.links, notices := t.notices, port := { s.port with buffer := t.port.buffer } } := by
  unfold execEnableLink at h; unfold onScreenNamed at h
  refine whileRunning_next
    (fun t : State => t = { s with links := t.links, notices := t.notices, port := { s.port with buffer := t.port.buffer } }) h rfl ?_
  (try dsimp only); split <;> first | (apply State.ext_fields <;> simp; done) | skip
  all_goals (unfold State.enableLink; (repeat' split) <;> apply State.ext_fields <;> simp)

theorem execDisableLink_frame (screen : Byte) {s t : State} (h : execDisableLink screen s = .next t) :
    t = { s with links := t.links, notices := t.notices, port := { s.port with buffer := t.port.buffer } } := by
  unfold execDisableLink at h; unfold onScreenNamed at h
  refine whileRunning_next
    (fun t : State => t = { s with links := t.links, notices := t.notices, port := { s.port with buffer := t.port.buffer } }) h rfl ?_
  (try dsimp only); split <;> first | (apply State.ext_fields <;> simp; done) | skip
  all_goals (unfold State.disableLink; (repeat' split) <;> apply State.ext_fields <;> simp)

theorem execResetLink_frame (screen : Byte) {s t : State} (h : execResetLink screen s = .next t) :
    t = { s with links := t.links, notices := t.notices, port := { s.port with buffer := t.port.buffer } } := by
  unfold execResetLink at h; unfold onScreenNamed at h
  refine whileRunning_next
    (fun t : State => t = { s with links := t.links, notices := t.notices, port := { s.port with buffer := t.port.buffer } }) h rfl ?_
  (try dsimp only); split <;> first | (apply State.ext_fields <;> simp; done) | skip
  all_goals (unfold State.resetLink; (repeat' split) <;> apply State.ext_fields <;> simp)

theorem execQueryScreen_frame (screen : Byte) {s t : State} (h : execQueryScreen screen s = .next t) :
    t = { s with port := { s.port with buffer := t.port.buffer } } := by
  unfold execQueryScreen at h; unfold onScreenNamed at h
  refine whileRunning_next (fun t : State => t = { s with port := { s.port with buffer := t.port.buffer } }) h rfl ?_
  split <;> rfl

theorem execSetDomain_frame (domain mode : Byte) (period : Half) (lock : RawLock)
    {s t : State} (h : execSetDomain domain mode period lock s = .next t) :
    t = { s with domains := t.domains, port := { s.port with buffer := t.port.buffer } } := by
  unfold execSetDomain at h
  refine whileRunning_next (fun t : State => t = { s with domains := t.domains, port := { s.port with buffer := t.port.buffer } }) h rfl ?_
  (repeat' split) <;> apply State.ext_fields <;> simp

theorem execQueryDomain_frame (domain : Byte) {s t : State} (h : execQueryDomain domain s = .next t) :
    t = { s with port := { s.port with buffer := t.port.buffer } } := by
  unfold execQueryDomain at h
  refine whileRunning_next (fun t : State => t = { s with port := { s.port with buffer := t.port.buffer } }) h rfl ?_
  split <;> rfl

theorem execTakeNotice_frame {s t : State} (h : execTakeNotice  s = .next t) :
    t = { s with notices := t.notices, port := { s.port with buffer := t.port.buffer } } := by
  unfold execTakeNotice at h
  refine whileRunning_next (fun t : State => t = { s with notices := t.notices, port := { s.port with buffer := t.port.buffer } }) h rfl ?_
  split <;> rfl

theorem execMaskNotices_frame (entries : Option (List (Byte × Byte))) {s t : State} (h : execMaskNotices entries s = .next t) :
    t = { s with notices := t.notices, port := { s.port with buffer := t.port.buffer } } := by
  unfold execMaskNotices at h
  refine whileRunning_next (fun t : State => t = { s with notices := t.notices, port := { s.port with buffer := t.port.buffer } }) h rfl ?_
  (repeat' split) <;> apply State.ext_fields <;> simp

theorem execCommandFrameRejected_frame (reason : RejectReason) (code : Option Byte)
    {s t : State} (h : execCommandFrameRejected reason code s = .next t) :
    t = { s with port := { s.port with buffer := t.port.buffer } } := by
  unfold execCommandFrameRejected at h
  refine whileRunning_next (fun t : State => t = { s with port := { s.port with buffer := t.port.buffer } }) h rfl ?_
  rfl

theorem execFetchTransaction_frame (clocked : Nat) {s t : State} (h : execFetchTransaction clocked s = .next t) :
    t = { s with port := { s.port with buffer := t.port.buffer, miso := t.port.miso } } := by
  unfold execFetchTransaction at h
  refine whileRunning_next (fun t : State => t = { s with port := { s.port with buffer := t.port.buffer, miso := t.port.miso } }) h rfl ?_
  rfl

theorem execFrameStart_frame (i : InputId) (tag : Half) {s t : State} (h : execFrameStart i tag s = .next t) :
    t = { s with inputs := t.inputs, domains := t.domains, notices := t.notices } := by
  unfold execFrameStart at h
  refine whileRunning_next (fun t : State => t = { s with inputs := t.inputs, domains := t.domains, notices := t.notices }) h rfl ?_
  rw [State.reportStarts_frame]; apply State.ext_fields <;> simp

theorem execLine_frame (i : InputId) (index : Half) (field : PixelField) {s t : State} (h : execLine i index field s = .next t) :
    t = { s with inputs := t.inputs } := by
  unfold execLine at h
  refine whileRunning_next (fun t : State => t = { s with inputs := t.inputs }) h rfl ?_
  rfl

theorem execFrameEnd_frame (i : InputId) {s t : State} (h : execFrameEnd i s = .next t) :
    t = { s with inputs := t.inputs, domains := t.domains, notices := t.notices } := by
  unfold execFrameEnd at h
  refine whileRunning_next (fun t : State => t = { s with inputs := t.inputs, domains := t.domains, notices := t.notices }) h rfl ?_
  (repeat' split) <;> apply State.ext_fields <;> simp

theorem execDiscardedPacket_frame (_i : InputId) {s t : State} (h : execDiscardedPacket _i s = .next t) :
    t = s := by
  unfold execDiscardedPacket at h
  refine whileRunning_next (fun t : State => t = s) h rfl ?_
  rfl

theorem execMissingFrameExpiry_frame (i : InputId) {s t : State} (h : execMissingFrameExpiry i s = .next t) :
    t = { s with inputs := t.inputs, domains := t.domains, notices := t.notices } := by
  unfold execMissingFrameExpiry at h
  refine whileRunning_next (fun t : State => t = { s with inputs := t.inputs, domains := t.domains, notices := t.notices }) h rfl ?_
  (repeat' split) <;> apply State.ext_fields <;> simp

theorem execDomainFrameStart_frame (d : Domain) {s t : State} (h : execDomainFrameStart d s = .next t) :
    t = { s with table := t.table, inputs := t.inputs, domains := t.domains, composers := t.composers, links := t.links, notices := t.notices } := by
  unfold execDomainFrameStart at h
  refine whileRunning_next
    (fun t : State => t = { s with table := t.table, inputs := t.inputs, domains := t.domains, composers := t.composers, links := t.links, notices := t.notices }) h rfl ?_
  (repeat' split) <;> apply State.ext_fields <;> simp

theorem execTrainingWindowExpiry_frame (sc : Screen) {s t : State} (h : execTrainingWindowExpiry sc s = .next t) :
    t = { s with table := t.table, inputs := t.inputs, domains := t.domains, composers := t.composers, links := t.links, notices := t.notices } := by
  unfold execTrainingWindowExpiry at h
  refine whileRunning_next
    (fun t : State => t = { s with table := t.table, inputs := t.inputs, domains := t.domains, composers := t.composers, links := t.links, notices := t.notices }) h rfl ?_
  (repeat' split) <;> apply State.ext_fields <;> simp

theorem execLinkResetEnd_frame (sc : Screen) {s t : State} (h : execLinkResetEnd sc s = .next t) :
    t = { s with table := t.table, inputs := t.inputs, domains := t.domains, composers := t.composers, links := t.links, notices := t.notices } := by
  unfold execLinkResetEnd at h
  refine whileRunning_next
    (fun t : State => t = { s with table := t.table, inputs := t.inputs, domains := t.domains, composers := t.composers, links := t.links, notices := t.notices }) h rfl ?_
  (repeat' split) <;> apply State.ext_fields <;> simp

theorem execLineHandover_frame (sc : Screen) {s t : State} (h : execLineHandover sc s = .next t) :
    t = { s with composers := t.composers, links := t.links } := by
  unfold execLineHandover at h
  refine whileRunning_next (fun t : State => t = { s with composers := t.composers, links := t.links }) h rfl ?_
  (repeat' split) <;> apply State.ext_fields <;> simp

theorem execStatusReturn_frame (sc : Screen) (sound : Bool) (bytes : List Byte)
    {s t : State} (h : execStatusReturn sc sound bytes s = .next t) :
    t = { s with links := t.links, notices := t.notices } := by
  unfold execStatusReturn at h
  refine whileRunning_next (fun t : State => t = { s with links := t.links, notices := t.notices }) h rfl ?_
  (repeat' split) <;> apply State.ext_fields <;> simp

theorem execResetnAssert_frame {s t : State} (h : execResetnAssert s = .next t) :
    t = { s with resetLow := t.resetLow, table := t.table, inputs := t.inputs, composers := t.composers, links := t.links, port := { s.port with transaction := t.port.transaction } } := by
  unfold execResetnAssert at h
  refine whileRunning_next
    (fun t : State => t = { s with resetLow := t.resetLow, table := t.table, inputs := t.inputs, composers := t.composers, links := t.links, port := { s.port with transaction := t.port.transaction } }) h rfl ?_
  unfold State.assertReset
  rw [State.disarm_frame]

/-- Every row but the release of RESETn is an effect that happens while RESETn is high. -/
theorem exec_whileRunning (c : Instr) (s : State) (hc : c ≠ .resetnRelease) : ∃ f, exec c s = whileRunning s f := by
  cases c
  case resetnRelease => exact absurd rfl hc
  case setScreen | setScreenTone | enableLink | disableLink | resetLink | queryScreen =>
    simp only [exec, execSetScreen, execSetScreenTone, execEnableLink, execDisableLink, execResetLink, execQueryScreen, onScreenNamed]
    exact ⟨_, rfl⟩
  all_goals
    simp only [exec]
    exact ⟨_, rfl⟩

end Sys2Proof.Machine
end

