-- ==== Sys2Proof/Laws/Ops.lean ====
section
/-! SUPPORT. What each shared operation writes: one lemma per operation that says what a record, an input, a slot, a link or the port reads
after it. With the frames of Laws/Frames.lean these say everything the operation does. -/

namespace Sys2Proof.Machine

/-! ### Records -/

@[simp] theorem State.modPlacement_record (s : State) (h k : Handle) (f : Placement → Placement) :
    (s.modPlacement h f).record k = if k = h then { s.record h with body := (s.placement h).map f } else s.record k := by
  unfold State.modPlacement
  split <;> rename_i hp
  · simp [hp]
  · simp only [hp, Option.map_none]
    split
    · rename_i hk; subst hk; rw [← hp]; rfl
    · rfl

@[simp] theorem State.modPlacement_placement (s : State) (h k : Handle) (f : Placement → Placement) :
    (s.modPlacement h f).placement k = if k = h then (s.placement h).map f else s.placement k := by
  simp only [State.placement, State.modPlacement_record]; split <;> rfl

/-- The same change made to each record of a list of handles. -/
theorem State.foldl_modPlacement_record (l : List Handle) (f : Placement → Placement) (s : State) (hl : l.Nodup) (h : Handle) :
    (l.foldl (fun s h => s.modPlacement h f) s).record h =
      if h ∈ l then { s.record h with body := (s.placement h).map f } else s.record h := by
  induction l generalizing s with
  | nil => simp
  | cons a l ih =>
    obtain ⟨ha, hl⟩ := List.nodup_cons.1 hl
    rw [List.foldl_cons, ih _ hl]
    by_cases hh : h = a
    · subst hh; simp [ha]
    · simp [hh]

theorem allHandles_nodup : allHandles.Nodup := List.nodup_finRange 64

/-- Arming reaches exactly the records of the named screens with staged differences (R34). -/
theorem State.arm_record (s : State) (named : List Screen) (h : Handle) :
    (s.arm named).record h = { s.record h with body := (s.placement h).map (armRecord named) } := by
  unfold State.arm
  rw [State.foldl_modPlacement_record _ _ _ allHandles_nodup, if_pos (mem_allHandles h)]

theorem State.arm_placement (s : State) (named : List Screen) (h : Handle) :
    (s.arm named).placement h = (s.placement h).map (armRecord named) := by
  rw [← State.record_body, State.arm_record]

/-- The fall of RESETn disarms every record (R184). -/
theorem State.assertReset_record (s : State) (h : Handle) :
    s.assertReset.record h = { s.record h with body := (s.placement h).map disarm } := by
  unfold State.assertReset
  simp only [State.record_mk, State.table_getElem]
  rw [State.foldl_modPlacement_record _ _ _ allHandles_nodup, if_pos (mem_allHandles h)]

/-- The lowest FREE handle (R18). -/
theorem State.lowestFree_eq_some {s : State} {h : Handle} :
    s.lowestFree = some h ↔ s.placement h = none ∧ ∀ k, k < h → s.placement k ≠ none := by
  unfold State.lowestFree
  rw [List.find?_eq_some_iff_append]
  simp only [Option.isNone_iff_eq_none, Bool.not_eq_true', ← Bool.not_eq_true]
  constructor
  · rintro ⟨hp, as, bs, hl, hb⟩
    refine ⟨hp, fun k hk => hb k ?_⟩
    have hs := allHandles_sorted
    have hm := mem_allHandles k
    rw [hl] at hs hm
    rcases List.mem_append.1 hm with hm | hm
    · exact hm
    · rcases List.mem_cons.1 hm with rfl | hm
      · exact absurd hk (lt_irrefl _)
      · exact absurd (List.rel_of_pairwise_cons (List.pairwise_append.1 hs).2.1 hm) (not_lt.2 hk.le)
  · rintro ⟨hp, hb⟩
    obtain ⟨as, bs, hl⟩ := List.append_of_mem (mem_allHandles h)
    refine ⟨hp, as, bs, hl, fun k hk => hb k ?_⟩
    have hs := allHandles_sorted
    rw [hl] at hs
    exact (List.pairwise_append.1 hs).2.2 k hk h (List.mem_cons_self ..)

theorem State.lowestFree_eq_none {s : State} : s.lowestFree = none ↔ ∀ h, s.placement h ≠ none := by
  simp [State.lowestFree]

/-! ### Slots -/

@[simp] theorem InputContext.unmarkLatest_get (c : InputContext) (k : SlotIndex) :
    c.unmarkLatest.slots.get k = (c.slots.get k).unmark := by cases k <;> rfl

theorem InputContext.unmarkLatest_frame (c : InputContext) : c.unmarkLatest = { c with slots := c.unmarkLatest.slots } := rfl

/-- Publication gives the slot the mark and takes it from every other (R78). -/
@[simp] theorem InputContext.publish_get (c : InputContext) (k j : SlotIndex) :
    (c.publish k).slots.get j = if j = k then (c.slots.get k).unmark.finish else (c.slots.get j).unmark := by
  simp [InputContext.publish]

theorem InputContext.publish_frame (c : InputContext) (k : SlotIndex) : c.publish k = { c with slots := (c.publish k).slots } := rfl

@[simp] theorem InputContext.allocate_get (c : InputContext) (k j : SlotIndex) :
    (c.allocate k).slots.get j =
      if j = k then (c.slots.get k).allocate c.frameNumber c.config.width c.config.height else c.slots.get j := by
  simp [InputContext.allocate]

/-- A restarted input: its open frame's slot FREE, the latest mark removed, every other slot as it was (R70, R86). -/
theorem InputContext.restart_get (c : InputContext) (k : SlotIndex) :
    c.restart.slots.get k = if c.openFrame.bind OpenFrame.slot = some k then .empty else (c.slots.get k).unmark := by
  unfold InputContext.restart
  cases ho : c.openFrame with
  | none => simp
  | some f =>
    cases hs : f.slot with
    | none => simp [hs]
    | some j =>
      simp only [Option.bind_some, hs, Option.some.injEq, unmarkLatest_get, PerSlot.get_set, eq_comm (a := j)]
      split
      · rfl
      · rfl

theorem InputContext.restart_frame (c : InputContext) :
    c.restart = { c with
      slots := c.restart.slots, openFrame := none, timer := none, previousStart := none, frameNumber := 0, timestamp := 0, senderTag := 0,
      measuredPeriod := none, goodRun := 0, badRun := 0 } := by
  unfold InputContext.restart
  cases ho : c.openFrame with
  | none => rfl
  | some f => cases hs : f.slot <;> simp [hs, InputContext.unmarkLatest]

/-- A latch outcome at the store: the slot held after it gains a holder and the one held before loses one, and no other slot changes
(R80, R81). -/
theorem State.moveHolder_slot (s : State) (before after : Option SlotRef) (r : SlotRef) :
    (s.moveHolder before after).slot r =
      if before = after then s.slot r
      else if before = some r then (s.slot r).release
      else if after = some r then (s.slot r).acquire
      else s.slot r := by
  unfold State.moveHolder
  split
  · rfl
  · rename_i hne
    cases before <;> cases after <;> simp_all [eq_comm (a := r)]
    rename_i a b
    by_cases h : a = r
    · subst h; simp [Ne.symm hne]
    · simp [h]

/-- A latch outcome reaches nothing of an input but its slots (R80). -/
theorem State.moveHolder_input (s : State) (before after : Option SlotRef) (i : InputId) :
    (s.moveHolder before after).input i = { s.input i with slots := ((s.moveHolder before after).input i).slots } := by
  unfold State.moveHolder
  split
  · rfl
  · cases before <;> cases after <;> simp only [State.modSlot_input] <;> (repeat' split) <;> simp_all

/-! ### Latches -/

@[simp] theorem State.setLatch_record (s : State) (h k : Handle) (after : Option SlotRef) :
    (s.setLatch h after).record k =
      if k = h then { s.record h with body := (s.placement h).map fun p => { p with latched := after } } else s.record k := by
  unfold State.setLatch
  split
  · rename_i hp
    split
    · rename_i hk; subst hk; simp only [hp, Option.map_none]; rw [← hp]; rfl
    · rfl
  · rename_i p hp
    simp

@[simp] theorem State.setLatch_placement (s : State) (h k : Handle) (after : Option SlotRef) :
    (s.setLatch h after).placement k = if k = h then (s.placement h).map fun p => { p with latched := after } else s.placement k := by
  simp only [State.placement, State.setLatch_record]; split <;> rfl

theorem State.setLatch_slot (s : State) (h : Handle) (after : Option SlotRef) (r : SlotRef) :
    (s.setLatch h after).slot r =
      match s.placement h with
      | none => s.slot r
      | some p => (s.moveHolder p.latched after).slot r := by
  unfold State.setLatch
  split <;> simp [*]

theorem State.setLatch_input (s : State) (h : Handle) (after : Option SlotRef) (i : InputId) :
    (s.setLatch h after).input i = { s.input i with slots := ((s.setLatch h after).input i).slots } := by
  unfold State.setLatch
  split
  · rfl
  · simp only [State.modPlacement_rest]; exact State.moveHolder_input _ _ _ _

@[simp] theorem State.sourceChanged_placement (s : State) (h k : Handle) :
    (s.sourceChanged h).placement k =
      if k = h then (s.placement h).map fun p => { p with latched := none, age := 0, lastFrame := 0 } else s.placement k := by
  simp only [State.sourceChanged, State.modPlacement_placement, State.setLatch_placement]
  split <;> simp [Option.map_map, Function.comp_def]

@[simp] theorem State.freeRecord_record (s : State) (h k : Handle) :
    (s.freeRecord h).record k = if k = h then { s.record h with body := none } else s.record k := by
  simp only [State.freeRecord, State.setBody_record, State.withdrawViews_record, State.setLatch_record]
  split <;> simp_all

@[simp] theorem State.freeRecord_placement (s : State) (h k : Handle) :
    (s.freeRecord h).placement k = if k = h then none else s.placement k := by
  simp only [State.placement, State.freeRecord_record]; split <;> rfl

/-! ### The source monitor -/

theorem State.enterHoldover_domain (s : State) (i : InputId) (d e : Domain) :
    (s.enterHoldover i d).domain e =
      if e = d ∧ (s.domain d).settings.locksTo i = true ∧ (s.domain d).mode = .locked then { s.domain d with mode := .holdover }
      else s.domain e := by
  unfold State.enterHoldover
  by_cases h : (s.domain d).settings.locksTo i = true ∧ (s.domain d).mode = .locked
  · rw [if_pos (by simpa using h)]; simp [h]
  · rw [if_neg (by simpa using h)]; simp [h]

/-- The monitor's state is all of an input that a change of it writes (R64). -/
@[simp] theorem State.setMonitor_input (s : State) (i j : InputId) (m : MonitorState) :
    (s.setMonitor i m).input j = if j = i then { s.input i with monitor := m } else s.input j := by
  unfold State.setMonitor
  split
  · rename_i h
    split
    · rename_i hj; subst hj; rw [← h]
    · rfl
  · have hold : ∀ (t : State) (d : Domain), (State.enterHoldover i t d).input j = t.input j := fun t d => by
      rw [State.enterHoldover_frame]; rfl
    dsimp only
    split
    · simp only [allDomains, List.foldl, hold, State.raise_rest, State.modInput_input]
    · simp

@[simp] theorem State.setMonitor_slot (s : State) (i : InputId) (m : MonitorState) (r : SlotRef) :
    (s.setMonitor i m).slot r = s.slot r := by
  simp only [State.slot, State.setMonitor_input]; split <;> simp_all

/-- A LOCKED domain of the input becomes HOLDOVER when its monitor leaves LOCKED, and no other domain is touched (R95). -/
theorem State.setMonitor_domain (s : State) (i : InputId) (m : MonitorState) (d : Domain) :
    (s.setMonitor i m).domain d =
      if (s.input i).monitor = .locked ∧ m ≠ .locked ∧ (s.domain d).settings.locksTo i = true ∧ (s.domain d).mode = .locked then
        { s.domain d with mode := .holdover }
      else s.domain d := by
  unfold State.setMonitor
  split
  · rename_i h; rw [if_neg]; rintro ⟨hl, hm, -⟩; exact hm (h.symm.trans hl)
  · rename_i h
    dsimp only
    split
    · rename_i hl
      have hm : m ≠ .locked := fun e => h (hl.trans e.symm)
      cases d <;> simp [allDomains, State.enterHoldover_domain, hl, hm]
    · rename_i hl; simp [hl]

/-- A judgement reaches nothing of an input but the monitor, its runs and the bad frames total (R63). -/
theorem State.judge_input (s : State) (i : InputId) (good : Bool) :
    (s.judge i good).input i = { s.input i with
      monitor := ((s.judge i good).input i).monitor, goodRun := ((s.judge i good).input i).goodRun,
      badRun := ((s.judge i good).input i).badRun, badFrames := ((s.judge i good).input i).badFrames } := by
  cases good <;> simp only [State.judge, if_true, Bool.false_eq_true, if_false]
  · unfold State.badFrame; dsimp only; (repeat' split) <;> simp
  · unfold State.goodFrame; dsimp only; (repeat' split) <;> simp

@[simp] theorem State.judge_input_ne (s : State) {i j : InputId} (good : Bool) (h : j ≠ i) : (s.judge i good).input j = s.input j := by
  cases good <;> simp only [State.judge, if_true, Bool.false_eq_true, if_false]
  · unfold State.badFrame; dsimp only; (repeat' split) <;> simp [h]
  · unfold State.goodFrame; dsimp only; (repeat' split) <;> simp [h]

@[simp] theorem State.judge_slot (s : State) (i : InputId) (good : Bool) (r : SlotRef) : (s.judge i good).slot r = s.slot r := by
  simp only [State.slot]
  by_cases h : r.input = i
  · rw [h, State.judge_input]
  · rw [State.judge_input_ne s good h]

/-! ### The packets of an input -/

@[simp] theorem State.firstFrame_input (s : State) (i j : InputId) :
    (s.firstFrame i).input j =
      if j = i ∧ (s.input i).monitor = .absent then { s.input i with monitor := .acquiring, goodRun := 0, badRun := 0 } else s.input j := by
  unfold State.firstFrame
  split <;> rename_i h <;> by_cases hj : j = i <;> simp [h, hj]

@[simp] theorem State.openInput_input (s : State) (i j : InputId) (tag : Half) :
    (s.openInput i tag).input j = if j = i then (s.input i).beginFrame s.timeBase tag (s.input i).freeSlot else s.input j := by
  unfold State.openInput; dsimp only; split <;> simp

/-- A report of a FRAME_START reaches no input (R93). -/
theorem State.reportStarts_input (s : State) (i j : InputId) (l : List Domain) :
    (l.foldl (State.reportStart i) s).input j = s.input j := by
  rw [State.reportStarts_frame]; rfl

/-! ### Notices -/

/-- An occurrence of an unmasked kind enters the set; one of a masked kind is not recorded (R177). -/
theorem State.raise_notices (s : State) (k : NoticeKey) :
    (s.raise k).notices =
      if s.notices.masks.get k.kind then s.notices else { s.notices with entries := recordNotice s.notices.entries k } := by
  unfold State.raise; split <;> rfl

@[simp] theorem State.raise_masks (s : State) (k : NoticeKey) : (s.raise k).notices.masks = s.notices.masks := by
  rw [State.raise_notices]; split <;> rfl

/-! ### Links -/

theorem LinkContext.closeFrame_eq (l : LinkContext) :
    l.closeFrame = { l with
      sent := l.sent ++ (match l.transmission with | some x => [.frameTail x.linesSent] | none => []), transmission := none } := by
  unfold LinkContext.closeFrame
  cases h : l.transmission <;> simp
  cases l; simp_all

/-- The judgement of an interval sends nothing and begins nothing (R151). -/
theorem LinkContext.judgeInterval_keeps (l : LinkContext) :
    l.judgeInterval.sent = l.sent ∧ l.judgeInterval.config = l.config ∧ l.judgeInterval.framesSent = l.framesSent ∧
    (l.transmission = none → l.judgeInterval.transmission = none) := by
  unfold LinkContext.judgeInterval
  cases l.state <;> simp [LinkContext.judgeTraining, LinkContext.judgeUp, LinkContext.judgeReset]
  all_goals (repeat' split) <;>
    simp_all [LinkContext.toUp, LinkContext.toHalted, LinkContext.clearRuns, LinkContext.toRecovering, LinkContext.toTraining]

@[simp] theorem State.changeLink_link (s : State) (sc x : Screen) (f : LinkContext → LinkContext) :
    (s.changeLink sc f).link x = if x = sc then f (s.link sc) else s.link x := by
  unfold State.changeLink; dsimp only; split <;> simp

/-- LINK_STATE is raised exactly for a change of state (R152). -/
theorem State.changeLink_notices (s : State) (sc : Screen) (f : LinkContext → LinkContext) :
    (s.changeLink sc f).notices =
      if (f (s.link sc)).state = (s.link sc).state then s.notices else (s.raise (.linkState sc)).notices := by
  unfold State.changeLink
  simp only [State.modLink_link, if_true]
  split
  · rfl
  · rw [State.raise_notices, State.raise_notices]; rfl

end Sys2Proof.Machine
end

