-- ==== Sys2Proof/Laws/Table.lean ====
section
/-! SUPPORT. The placement table at a frame start: what the live list lists, and what application, renumbering and a view decision leave in
a record (R12, R39 to R43, R126). -/

namespace Sys2Proof.Machine

/-! ### Lists of handles -/

theorem State.onScreen_eq_true {s : State} {sc : Screen} {q : Placement → Bool} {h : Handle} :
    s.onScreen sc q h = true ↔ ∃ p, s.placement h = some p ∧ p.screen = sc ∧ q p = true := by
  unfold State.onScreen
  cases s.placement h <;> simp

theorem State.mem_handlesOn {s : State} {sc : Screen} {q : Placement → Bool} {h : Handle} :
    h ∈ s.handlesOn sc q ↔ ∃ p, s.placement h = some p ∧ p.screen = sc ∧ q p = true := by
  simp [State.handlesOn, State.onScreen_eq_true]

theorem State.handlesOn_sorted (s : State) (sc : Screen) (q : Placement → Bool) : (s.handlesOn sc q).Pairwise (· < ·) :=
  allHandles_sorted.filter _

theorem State.liveList_perm (s : State) (sc : Screen) : (s.liveList sc).Perm (s.handlesOn sc Placement.isLive) :=
  List.perm_insertionSort _ _

/-- A screen's live list holds its LIVE records (R12). -/
theorem State.mem_liveList {s : State} {sc : Screen} {h : Handle} :
    h ∈ s.liveList sc ↔ ∃ p, s.placement h = some p ∧ p.screen = sc ∧ p.isLive = true :=
  (s.liveList_perm sc).mem_iff.trans State.mem_handlesOn

theorem State.liveList_nodup (s : State) (sc : Screen) : (s.liveList sc).Nodup :=
  (s.liveList_perm sc).nodup_iff.2 ((s.handlesOn_sorted sc _).imp fun h => ne_of_lt h)

/-- A screen's live list stands in the order of its join positions (R43). -/
theorem State.liveList_sorted (s : State) (sc : Screen) : (s.liveList sc).Pairwise fun h k => s.joinKey h ≤ s.joinKey k := by
  have t : Std.Total fun h k : Handle => s.joinKey h ≤ s.joinKey k := ⟨fun _ _ => le_total _ _⟩
  have r : IsTrans Handle fun h k => s.joinKey h ≤ s.joinKey k := ⟨fun _ _ _ => le_trans⟩
  exact List.pairwise_insertionSort _ _

/-- The placement count is the number of NEW and LIVE records of the screen (R1). -/
theorem State.placementCount_eq_zero {s : State} {sc : Screen} :
    s.placementCount sc = 0 ↔ ∀ h p, s.placement h = some p → p.screen ≠ sc := by
  unfold State.placementCount
  rw [List.length_eq_zero_iff, List.eq_nil_iff_forall_not_mem]
  simp only [State.mem_handlesOn, not_exists, not_and]
  exact ⟨fun h k p hp hs => h k p hp hs trivial, fun h k p hp hs _ => h k p hp hs⟩

/-! ### Application -/

/-- What application leaves of an armed record: nothing of a retired one, and the staged image in the others, with the latch released where the
committed source changes (R40, R41, R42). -/
def Placement.applied (frame : Nat) (p : Placement) : Option Placement :=
  if p.retireStaged then none
  else
    match p.committed with
    | none => some (p.join frame)
    | some m => some (if m.source = p.staged.source then p.takeStaged else { p.takeStaged with latched := none, age := 0, lastFrame := 0 })

theorem State.applyRecord_placement (s : State) (frame : Nat) (h k : Handle) :
    (State.applyRecord frame s h).placement k = if k = h then (s.placement h).bind (Placement.applied frame) else s.placement k := by
  unfold State.applyRecord
  split
  · rename_i hp; split <;> simp_all
  · rename_i p hp
    by_cases hr : p.retireStaged = true
    · simp [hr, hp, Placement.applied]
    · cases hc : p.committed with
      | none => simp [hr, hp, hc, Placement.applied]
      | some m => by_cases hs : m.source = p.staged.source <;> by_cases hk : k = h <;> simp [hr, hp, hc, hs, hk, Placement.applied]

/-- Application of a list of records applies each once and touches no other. -/
theorem State.foldl_applyRecord_placement (l : List Handle) (frame : Nat) (s : State) (hl : l.Nodup) (k : Handle) :
    (l.foldl (State.applyRecord frame) s).placement k =
      if k ∈ l then (s.placement k).bind (Placement.applied frame) else s.placement k := by
  induction l generalizing s with
  | nil => simp
  | cons a l ih =>
    obtain ⟨ha, hl⟩ := List.nodup_cons.1 hl
    rw [List.foldl_cons, ih _ hl, State.applyRecord_placement]
    by_cases hk : k = a
    · subst hk; simp [ha]
    · simp [hk]

/-- Renumbering gives each listed record its place as join position and touches no other field (R43). -/
theorem State.renumber_placement (s : State) (n : Nat) (l : List Handle) (hl : l.Nodup) (k : Handle) :
    (s.renumber n l).placement k =
      (s.placement k).map fun p => if k ∈ l then { p with joinPosition := some (n + l.idxOf k) } else p := by
  induction l generalizing s n with
  | nil => simp [State.renumber]
  | cons a l ih =>
    obtain ⟨ha, hl⟩ := List.nodup_cons.1 hl
    rw [State.renumber, ih _ _ hl, State.modPlacement_placement]
    by_cases hk : k = a
    · subst hk; simp [ha, Option.map_map, Function.comp_def]
    · have : ¬a = k := fun e => hk e.symm
      simp only [hk, if_false, List.mem_cons, false_or, List.idxOf_cons, beq_iff_eq, this, cond_eq_ite]
      congr 1
      funext p
      split
      · congr 2; omega
      · rfl

/-! ### View decisions -/

/-- A decision writes the view, the latch, the age and the last source frame number, and nothing else of any record (R126). -/
theorem State.writeDecision_placement (s : State) (h k : Handle) (p : Placement) (d : Decision) :
    (s.writeDecision h p d).placement k =
      if k = h then (s.placement h).map fun q => { q with view := some d.view, latched := d.slot, age := d.age, lastFrame := d.lastFrame }
      else s.placement k := by
  unfold State.writeDecision
  simp only [State.raiseSome_rest, State.modPlacement_placement, State.setLatch_placement]
  split <;> simp [Option.map_map, Function.comp_def]

theorem State.decideView_placement_ne (s : State) {h k : Handle} (hk : k ≠ h) : (s.decideView h).placement k = s.placement k := by
  unfold State.decideView
  split
  · rfl
  · split
    · rfl
    · rw [State.writeDecision_placement, if_neg hk]

end Sys2Proof.Machine
end

