-- ==== Sys2Proof/Laws/FrameStart.lean ====
section
/-! SUPPORT. A composer's frame start, stage by stage: what each of the steps of R39 leaves in a record and in its generation, and what the
whole of it leaves of the other screens' records (R22, R40 to R47, R126, R135). -/

namespace Sys2Proof.Machine

/-- A record is its generation and what it holds. -/
theorem State.record_ext {s t : State} {h k : Handle} (hg : (t.record k).generation = (s.record h).generation)
    (hp : t.placement k = s.placement h) : t.record k = s.record h := by
  rw [← State.record_body, ← State.record_body] at hp
  generalize t.record k = a at *
  generalize s.record h = b at *
  cases a; cases b; simp_all

/-- A handle is on the live list exactly when its record is LIVE on the screen; whether it is frozen, drawn or numbered is no matter (R12). -/
theorem State.mem_liveList_iff {s : State} {sc : Screen} {h : Handle} :
    h ∈ s.liveList sc ↔ ∃ p, s.placement h = some p ∧ p.screen = sc ∧ p.committed ≠ none := by
  simp [State.mem_liveList, Placement.isLive, Option.isSome_iff_ne_none]

/-- A stage that works a list of handles, each on its own record and from what no other's work changes, does each one's work once. -/
theorem foldl_placement {f : State → Handle → State} {φ : State → Placement → Placement}
    (hf : ∀ s h k, (f s h).placement k = if k = h then (s.placement h).map (φ s) else s.placement k) (hφ : ∀ s h, φ (f s h) = φ s)
    (l : List Handle) (s : State) (hl : l.Nodup) (k : Handle) :
    (l.foldl f s).placement k = if k ∈ l then (s.placement k).map (φ s) else s.placement k := by
  induction l generalizing s with
  | nil => simp
  | cons a l ih =>
    obtain ⟨ha, hl⟩ := List.nodup_cons.1 hl
    rw [List.foldl_cons, ih _ hl, hφ, hf]
    by_cases hk : k = a
    · subst hk; simp [ha]
    · simp [hk]

/-- The same for a property of every record that each one's work keeps. -/
theorem foldl_generation {f : State → Handle → State} (hf : ∀ s h k, ((f s h).record k).generation = (s.record k).generation)
    (l : List Handle) (s : State) (k : Handle) : ((l.foldl f s).record k).generation = (s.record k).generation :=
  foldl_keeps (P := fun t : State => (t.record k).generation = (s.record k).generation) l rfl fun b a hb => (hf b a k).trans hb

/-! ### Generations -/

theorem State.modPlacement_generation (s : State) (h k : Handle) (f : Placement → Placement) :
    ((s.modPlacement h f).record k).generation = (s.record k).generation := by
  rw [State.modPlacement_record]; split <;> simp_all

theorem State.setLatch_generation (s : State) (h k : Handle) (a : Option SlotRef) :
    ((s.setLatch h a).record k).generation = (s.record k).generation := by
  rw [State.setLatch_record]; split <;> simp_all

theorem State.sourceChanged_generation (s : State) (h k : Handle) :
    ((s.sourceChanged h).record k).generation = (s.record k).generation := by
  rw [State.sourceChanged, State.modPlacement_generation, State.setLatch_generation]

theorem State.freeRecord_generation (s : State) (h k : Handle) :
    ((s.freeRecord h).record k).generation = (s.record k).generation := by
  rw [State.freeRecord_record]; split <;> simp_all

theorem State.applyRecord_generation (frame : Nat) (s : State) (h k : Handle) :
    ((State.applyRecord frame s h).record k).generation = (s.record k).generation := by
  unfold State.applyRecord
  (repeat' split) <;>
    simp only [State.freeRecord_generation, State.modPlacement_generation, State.sourceChanged_generation]

theorem State.renumber_generation (s : State) (n : Nat) (l : List Handle) (k : Handle) :
    ((s.renumber n l).record k).generation = (s.record k).generation := by
  induction l generalizing s n with
  | nil => rfl
  | cons a l ih => rw [State.renumber, ih, State.modPlacement_generation]

/-- Application changes no generation (R2, R40 to R42). -/
theorem State.applyArmed_generation (s : State) (sc : Screen) (frame : Nat) (k : Handle) :
    ((s.applyArmed sc frame).record k).generation = (s.record k).generation := by
  unfold State.applyArmed
  split
  · rfl
  · simp only [State.raise_rest, State.modComposer_record, State.renumber_generation]
    exact foldl_generation (State.applyRecord_generation frame) _ s k

theorem State.takeFreeze_generation (s : State) (h k : Handle) :
    ((s.takeFreeze h).record k).generation = (s.record k).generation := by
  unfold State.takeFreeze
  dsimp only
  (repeat' split) <;> first | rfl | exact State.modPlacement_generation s h k _ | skip
  rw [State.setLatch_generation, State.modPlacement_generation]

theorem State.takeFreezes_generation (s : State) (sc : Screen) (k : Handle) :
    ((s.takeFreezes sc).record k).generation = (s.record k).generation := foldl_generation State.takeFreeze_generation _ s k

theorem State.decideView_generation (s : State) (h k : Handle) :
    ((s.decideView h).record k).generation = (s.record k).generation := by
  unfold State.decideView State.writeDecision
  (repeat' split) <;> first | rfl | rw [(State.raiseSome_rest _ _).2.2.2.2.2.2.2.2.2.2.1, State.modPlacement_generation, State.setLatch_generation]

theorem State.decideViews_generation (s : State) (sc : Screen) (k : Handle) :
    ((s.decideViews sc).record k).generation = (s.record k).generation := foldl_generation State.decideView_generation _ s k

/-! ### Passenger choices -/

/-- What a reachable choice leaves of its record: the sources written, and the latch released where the committed source changes (R47). -/
def Placement.chosen (m : Image) (i : InputId) (p : Placement) : Placement :=
  if m.source = .input i then p.choose i else { p.choose i with latched := none, age := 0, lastFrame := 0 }

theorem State.applyChoice_placement (s : State) (sc : Screen) (h k : Handle) (m : Image) (i : InputId) :
    (s.applyChoice sc h m i).placement k = if k = h then (s.placement h).map (Placement.chosen m i) else s.placement k := by
  unfold State.applyChoice Placement.chosen
  by_cases hs : m.source = .input i <;> by_cases hk : k = h <;> simp [hs, hk, Function.comp_def]

theorem State.applyChoice_generation (s : State) (sc : Screen) (h k : Handle) (m : Image) (i : InputId) :
    ((s.applyChoice sc h m i).record k).generation =
      if k = h then (s.record h).generation + 1 else (s.record k).generation := by
  unfold State.applyChoice
  by_cases hs : m.source = .input i <;> by_cases hk : k = h <;> simp [hs, hk, State.sourceChanged_generation]

/-! ### Freeze requests -/

/-- What step 3 of R39 leaves of a LIVE record (R135). -/
def Placement.freezeTaken (p : Placement) : Placement :=
  match p.freezeRequest with
  | none => p
  | some .thaw => { p with freezeRequest := none, frozen := false }
  | some .freeze =>
    { p with freezeRequest := none, frozen := true
             latched := if !p.frozen && p.holdsForeignSlot then none else p.latched }

theorem State.takeFreeze_placement (s : State) (h k : Handle) :
    (s.takeFreeze h).placement k = if k = h then (s.placement h).map Placement.freezeTaken else s.placement k := by
  unfold State.takeFreeze
  split
  · rename_i hp; split <;> simp_all
  · rename_i p hp
    split <;> rename_i hr
    · by_cases hk : k = h <;> simp [hk, hp, hr, Placement.freezeTaken]
    · by_cases hk : k = h <;> simp [hk, hp, hr, Placement.freezeTaken]
    · dsimp only
      split <;> rename_i hc <;> by_cases hk : k = h <;> simp [hk, hp, hr, Placement.freezeTaken, hc]

/-- Step 3 takes the request of each LIVE record of the screen and touches no other record (R39, R135). -/
theorem State.takeFreezes_placement (s : State) (sc : Screen) (k : Handle) :
    (s.takeFreezes sc).placement k = if k ∈ s.liveList sc then (s.placement k).map Placement.freezeTaken else s.placement k :=
  foldl_placement (φ := fun _ => Placement.freezeTaken) State.takeFreeze_placement (fun _ _ => rfl) _ s (s.liveList_nodup sc) k

/-! ### View decisions -/

@[simp] theorem Slot.release_latest (z : Slot) : z.release.latest = z.latest := by
  unfold Slot.release Slot.freeIfUnused
  split
  · rename_i h; simp only [Bool.and_eq_true, Bool.not_eq_true'] at h; exact h.2.symm
  · rfl

theorem Slot.release_frameNumber {z : Slot} (h : z.latest = true) : z.release.frameNumber = z.frameNumber := by
  simp [Slot.release, Slot.freeIfUnused, h]

/-- A change of holders moves no latest mark and no latest slot's frame number, so no answer of the store changes by it (R80, R126). -/
@[simp] theorem State.moveHolder_answer (s : State) (before after : Option SlotRef) : (s.moveHolder before after).answer = s.answer := by
  have hs : ∀ r, ((s.moveHolder before after).slot r).latest = (s.slot r).latest ∧
      ((s.slot r).latest = true → ((s.moveHolder before after).slot r).frameNumber = (s.slot r).frameNumber) := by
    intro r
    rw [State.moveHolder_slot]
    split
    · simp
    · split
      · exact ⟨Slot.release_latest _, Slot.release_frameNumber⟩
      · split <;> simp [Slot.acquire]
  funext i
  have hl : ((s.moveHolder before after).input i).latest = (s.input i).latest :=
    congrArg (List.find? · allSlots) (funext fun k => (hs ⟨i, k⟩).1)
  unfold State.answer
  dsimp only
  rw [hl]
  congr 1
  · rw [State.moveHolder_input]
  · cases hk : (s.input i).latest with
    | none => rfl
    | some k =>
      have : (s.slot ⟨i, k⟩).latest = true := by
        unfold InputContext.latest at hk
        exact List.find?_some (p := fun k => ((s.input i).slots.get k).latest) hk
      exact congrArg (fun n => some ((⟨i, k⟩ : SlotRef), n)) ((hs ⟨i, k⟩).2 this)

theorem State.answer_congr {s t : State} (h : t.inputs = s.inputs) : t.answer = s.answer := by
  funext i
  have : t.input i = s.input i := congrArg (fun x : PerInput InputContext => x.get i) h
  simp [State.answer, this]

/-- What a decision is taken from is the same for every record of the screen (R126). -/
theorem State.decideView_answer (s : State) (h : Handle) : (s.decideView h).answer = s.answer := by
  unfold State.decideView
  split
  · rfl
  · split
    · rfl
    · unfold State.writeDecision
      rw [State.answer_congr (State.raiseSome_rest _ _).2.2.2.1, State.answer_congr (State.modPlacement_rest _ _ _).2.2.1]
      unfold State.setLatch
      split
      · rfl
      · rw [State.answer_congr (State.modPlacement_rest _ _ _).2.2.1, State.moveHolder_answer]

/-- What a view decision leaves of a record, LIVE or not (R126). -/
def Placement.decided (answers : InputId → SourceAnswer) (p : Placement) : Placement :=
  match p.committed with
  | none => p
  | some m =>
    let d := viewDecision p m answers
    { p with view := some d.view, latched := d.slot, age := d.age, lastFrame := d.lastFrame }

theorem State.decideView_placement (s : State) (h k : Handle) :
    (s.decideView h).placement k = if k = h then (s.placement h).map (Placement.decided s.answer) else s.placement k := by
  unfold State.decideView
  split
  · rename_i hp; split <;> simp_all
  · rename_i p hp
    split <;> rename_i hm
    · by_cases hk : k = h <;> simp [hk, hp, hm, Placement.decided]
    · rw [State.writeDecision_placement]
      by_cases hk : k = h <;> simp [hk, hp, hm, Placement.decided]

/-- Step 5 decides each LIVE record of the screen, each from the same answers, and touches no other record (R39, R126). -/
theorem State.decideViews_placement (s : State) (sc : Screen) (k : Handle) :
    (s.decideViews sc).placement k = if k ∈ s.liveList sc then (s.placement k).map (Placement.decided s.answer) else s.placement k :=
  foldl_placement (φ := fun s => Placement.decided s.answer) State.decideView_placement
    (fun s h => by rw [State.decideView_answer]) _ s (s.liveList_nodup sc) k

/-! ### Application -/

theorem mem_layered {α : Type} {layer : α → Nat} {stayers movers : List α} {x : α} (h : x ∈ layered layer stayers movers) :
    x ∈ stayers ∨ x ∈ movers := by
  unfold layered at h
  simp only [List.mem_flatMap, List.mem_append, List.mem_filter] at h
  obtain ⟨_, _, hs | hm⟩ := h
  · exact .inl hs.1
  · exact .inr hm.1

/-- Only records that are LIVE on the screen after the application are in the live list it rebuilds (R43). -/
theorem State.mem_rebuiltList {before after : State} {sc : Screen} {h : Handle} (hh : h ∈ before.rebuiltList after sc) :
    ∃ p, after.placement h = some p ∧ p.screen = sc ∧ p.committed ≠ none := by
  have key : ∀ {p : Placement}, p.isLive = true → p.committed ≠ none := by simp [Placement.isLive, Option.isSome_iff_ne_none]
  unfold State.rebuiltList at hh
  rcases mem_layered hh with h' | h' <;> clear hh
  · have h' := (List.mem_filter.1 h').2
    simp only [Bool.and_eq_true] at h'
    obtain ⟨p, h1, h2, h3⟩ := State.onScreen_eq_true.1 h'.1
    exact ⟨p, h1, h2, key h3⟩
  · obtain ⟨p, h1, h2, h3⟩ := State.mem_handlesOn.1 (List.mem_filter.1 h').1
    exact ⟨p, h1, h2, key h3⟩

theorem State.renumber_placement_notMem (s : State) (n : Nat) {l : List Handle} {k : Handle} (hk : k ∉ l) :
    (s.renumber n l).placement k = s.placement k := by
  induction l generalizing s n with
  | nil => rfl
  | cons a l ih =>
    rw [State.renumber, ih _ _ fun e => hk (List.mem_cons_of_mem _ e), State.modPlacement_placement,
      if_neg fun e : k = a => hk (e ▸ List.mem_cons_self ..)]

theorem State.renumber_placement_exists (s : State) (n : Nat) (l : List Handle) (k : Handle) :
    ∃ j : Placement → Option Nat,
      (s.renumber n l).placement k = (s.placement k).map fun q => { q with joinPosition := j q } := by
  induction l generalizing s n with
  | nil => exact ⟨Placement.joinPosition, by simp [State.renumber]⟩
  | cons a l ih =>
    obtain ⟨j, hj⟩ := ih (s.modPlacement a fun p => { p with joinPosition := some n }) (n + 1)
    rw [State.renumber, hj, State.modPlacement_placement]
    by_cases hk : k = a
    · subst hk
      exact ⟨fun q => j { q with joinPosition := some n }, by simp [Function.comp_def]⟩
    · exact ⟨j, by simp [hk]⟩

/-- The place of a record in a live list and its handle apart, what application leaves of a record (R39 to R43): an armed one of the screen
takes its staged image, joins or leaves, and any other stays. -/
def State.afterApplication (s : State) (sc : Screen) (frame : Nat) (h : Handle) : Option Placement :=
  (s.placement h).bind fun p => if p.screen = sc ∧ p.armed = true then p.applied frame else some p

theorem State.applyArmed_eq (s : State) (sc : Screen) (frame : Nat) :
    ((∀ h p, s.placement h = some p → p.screen = sc → p.armed = false) ∧ s.applyArmed sc frame = s) ∨
    ∃ t l, l = s.rebuiltList t sc ∧ (∀ h, t.placement h = s.afterApplication sc frame h) ∧
      t = (s.handlesOn sc Placement.armed).foldl (State.applyRecord frame) s ∧
      (∃ h p, s.placement h = some p ∧ p.screen = sc ∧ p.armed = true) ∧
      s.applyArmed sc frame = ((t.renumber 0 l).modComposer sc fun k => { k with lastApplied := frame }).raise (.applied sc) := by
  generalize hd : s.handlesOn sc Placement.armed = armed
  cases armed with
  | nil =>
    refine .inl ⟨fun h p hp hs => ?_, by rw [State.applyArmed, hd]⟩
    by_contra hc
    have : h ∈ s.handlesOn sc Placement.armed := State.mem_handlesOn.2 ⟨p, hp, hs, by simpa using hc⟩
    rw [hd] at this
    cases this
  | cons a l =>
    refine .inr ⟨(a :: l).foldl (State.applyRecord frame) s, _, rfl, fun h => ?_, rfl, ?_, by rw [State.applyArmed, hd]⟩
    · rw [← hd, State.foldl_applyRecord_placement _ _ _ ((s.handlesOn_sorted sc _).imp fun h => ne_of_lt h)]
      unfold State.afterApplication
      cases hp : s.placement h with
      | none => simp
      | some p =>
        have : h ∈ s.handlesOn sc Placement.armed ↔ p.screen = sc ∧ p.armed = true := by simp [State.mem_handlesOn, hp]
        simp only [this, Option.bind_some]
    · obtain ⟨p, hp⟩ := State.mem_handlesOn.1 (hd ▸ List.mem_cons_self .. : a ∈ s.handlesOn sc Placement.armed)
      exact ⟨a, p, hp⟩

/-- Application in a record, but for its place in the live list (R39 to R43). -/
theorem State.applyArmed_placement (s : State) (sc : Screen) (frame : Nat) (h : Handle) :
    ∃ j : Placement → Option Nat,
      (s.applyArmed sc frame).placement h = (s.afterApplication sc frame h).map fun q => { q with joinPosition := j q } := by
  rcases s.applyArmed_eq sc frame with ⟨ha, he⟩ | ⟨t, l, -, ht, -, -, he⟩
  · refine ⟨Placement.joinPosition, ?_⟩
    rw [he]
    unfold State.afterApplication
    cases hp : s.placement h with
    | none => rfl
    | some p =>
      have : ¬(p.screen = sc ∧ p.armed = true) := fun e => by simp [ha h p hp e.1] at e
      simp [this]
  · obtain ⟨j, hj⟩ := t.renumber_placement_exists 0 l h
    refine ⟨j, ?_⟩
    rw [he]
    simp only [State.raise_rest, State.modComposer_placement, hj, ht]

/-- Application touches no record of another screen (R39). -/
theorem State.applyArmed_placement_other {s : State} {sc : Screen} {h : Handle} (frame : Nat)
    (hs : ∀ p, s.placement h = some p → p.screen ≠ sc) : (s.applyArmed sc frame).placement h = s.placement h := by
  rcases s.applyArmed_eq sc frame with ⟨-, he⟩ | ⟨t, l, hl, ht, -, -, he⟩
  · rw [he]
  · have hth : t.placement h = s.placement h := by
      rw [ht]
      unfold State.afterApplication
      cases hp : s.placement h with
      | none => rfl
      | some p => simp [hs p hp]
    rw [he]
    simp only [State.raise_rest, State.modComposer_placement]
    rw [State.renumber_placement_notMem, hth]
    intro hm
    obtain ⟨p, hp, hsc, -⟩ := State.mem_rebuiltList (hl ▸ hm)
    exact hs p (hth ▸ hp) hsc

/-! ### The whole of a composer's frame start -/

/-- A choice reaches a LIVE record of its screen and an entry of that record's committed choice list (R46). -/
theorem State.reachable_eq_some {s : State} {sc : Screen} {n : Nat} {h : Handle} {m : Image} {i : InputId} :
    s.reachable sc n = some (h, m, i) ↔
      s.liveSelectable sc = some h ∧ (s.placement h).bind Placement.committed = some m ∧ m.choiceList[n]? = some i := by
  unfold State.reachable
  cases s.liveSelectable sc with
  | none => simp
  | some k =>
    cases hc : (s.placement k).bind Placement.committed with
    | none =>
      simp only [hc, reduceCtorEq, Option.some.injEq, false_iff, not_and]
      rintro rfl hm
      simp [hc] at hm
    | some m' =>
      simp only [hc, Option.map_eq_some_iff, Prod.mk.injEq, Option.some.injEq]
      constructor
      · rintro ⟨j, hj, rfl, rfl, rfl⟩; exact ⟨rfl, hc, hj⟩
      · rintro ⟨rfl, hm, hi⟩
        rw [hc] at hm
        obtain rfl := Option.some.inj hm
        exact ⟨i, hi, rfl, rfl, rfl⟩

theorem State.liveSelectable_eq_some {s : State} {sc : Screen} {h : Handle} (hs : s.liveSelectable sc = some h) :
    ∃ p m, s.placement h = some p ∧ p.screen = sc ∧ p.selectable = true ∧ p.committed = some m := by
  obtain ⟨p, hp, hsc, hq⟩ := State.mem_handlesOn.1 (List.mem_of_mem_head? hs)
  simp only [Bool.and_eq_true] at hq
  obtain ⟨m, hm⟩ := Option.isSome_iff_exists.1 hq.1
  exact ⟨p, m, hp, hsc, hq.2, hm⟩

/-- Step 2 leaves a record as it was, or is a reachable choice applied to it (R46, R47). -/
theorem State.takeChoice_record (s : State) (sc : Screen) (h : Handle) :
    ((s.takeChoice sc).placement h = s.placement h ∧ ((s.takeChoice sc).record h).generation = (s.record h).generation) ∨
    ∃ n p m i, isRearScreen sc = true ∧ (s.link sc).pendingChoice = some n ∧ s.liveSelectable sc = some h ∧ s.placement h = some p ∧
      p.screen = sc ∧ p.committed = some m ∧ m.choiceList[n]? = some i ∧ (s.takeChoice sc).placement h = some (p.chosen m i) ∧
      ((s.takeChoice sc).record h).generation = (s.record h).generation + 1 := by
  unfold State.takeChoice
  split
  · rename_i hr
    split
    · exact .inl ⟨rfl, rfl⟩
    · rename_i n hn
      dsimp only
      split
      · rename_i k m i hk
        obtain ⟨h1, h2, h3⟩ := State.reachable_eq_some.1 hk
        obtain ⟨p, m', hp, hsc, -, hm⟩ := State.liveSelectable_eq_some h1
        rw [State.applyChoice_placement, State.applyChoice_generation]
        simp only [State.modLink_placement, State.modLink_record] at h2 hp ⊢
        by_cases hh : h = k
        · subst hh
          rw [hp, Option.bind_some, hm] at h2
          obtain rfl := Option.some.inj h2
          exact .inr ⟨n, p, m', i, hr, hn, h1, hp, hsc, hm, h3, by simp [hp], by simp⟩
        · exact .inl (by simp [hh])
      · exact .inl ⟨rfl, rfl⟩
  · exact .inl ⟨rfl, rfl⟩

/-- A composer's frame start touches no record of another screen (R39). -/
theorem State.composerStart_record_other {s : State} {sc : Screen} {h : Handle} (frame : Nat)
    (hs : ∀ p, s.placement h = some p → p.screen ≠ sc) : (s.composerStart sc frame).record h = s.record h := by
  have off : ∀ t : State, t.placement h = s.placement h → h ∉ t.liveList sc := fun t ht hm => by
    obtain ⟨p, hp, hsc, -⟩ := State.mem_liveList_iff.1 hm
    exact hs p (ht ▸ hp) hsc
  have ha := State.applyArmed_placement_other frame hs
  have hc : ((s.applyArmed sc frame).takeChoice sc).placement h = s.placement h ∧
      (((s.applyArmed sc frame).takeChoice sc).record h).generation = (s.record h).generation := by
    rcases State.takeChoice_record (s.applyArmed sc frame) sc h with hc | ⟨n, p, m, i, -, -, -, hp, hsc, -⟩
    · exact ⟨hc.1.trans ha, hc.2.trans (State.applyArmed_generation ..)⟩
    · exact absurd hsc (hs p (ha ▸ hp))
  have hf : (((s.applyArmed sc frame).takeChoice sc).takeFreezes sc).placement h = s.placement h := by
    rw [State.takeFreezes_placement, if_neg (off _ hc.1), hc.1]
  unfold State.composerStart
  refine State.record_ext ?_ ?_
  · simp only [State.beginComposition_rest]
    rw [State.decideViews_generation]
    simp only [State.takeTone_rest]
    rw [State.takeFreezes_generation, hc.2]
  · simp only [State.beginComposition_rest]
    rw [State.decideViews_placement, if_neg (off _ (by simpa using hf))]
    simpa using hf

end Sys2Proof.Machine
end

