-- ==== Sys2Proof/Laws/Notices.lean ====
section
/-! SUPPORT. The notice set in its canonical form: what recording an occurrence does to the entries, and that every operation on the set keeps
the form (R176, R177). -/

namespace Sys2Proof.Safety

open Sys2Proof.Machine

/-- A subject's rank is below 64, so the rank of a key gives its priority and its subject. -/
theorem subject_lt (k : NoticeKey) : k.subject < 64 := by
  cases k <;> simp only [NoticeKey.subject, Fin.is_lt] <;> (rename_i x; cases x <;> decide)

theorem rank_injective {k j : NoticeKey} (h : k.rank = j.rank) : k = j := by
  have hk := subject_lt k
  have hj := subject_lt j
  unfold NoticeKey.rank at h
  have hp : k.kind.priority = j.kind.priority := by omega
  have hs : k.subject = j.subject := by omega
  cases k <;> cases j <;> simp only [NoticeKey.kind, NoticeKind.priority] at hp <;> (try omega) <;>
    simp only [NoticeKey.subject] at hs <;> rename_i x y <;> first
    | exact congrArg _ (Fin.ext hs)
    | (cases x <;> cases y <;> simp_all [screenNumber, inputNumber, domainNumber])

/-- The rank of what stands in the set after an occurrence is recorded. -/
theorem recordNotice_rank {l : List NoticeEntry} {k : NoticeKey} {n : Nat} (hk : n < k.rank) (hl : ∀ e ∈ l, n < e.key.rank) :
    ∀ e ∈ recordNotice l k, n < e.key.rank := by
  induction l with
  | nil => simpa [recordNotice] using hk
  | cons a l ih =>
    unfold recordNotice
    intro e he
    split at he
    · rcases List.mem_cons.1 he with rfl | he
      · exact hk
      · exact hl e (List.mem_cons_of_mem _ he)
    · split at he
      · rcases List.mem_cons.1 he with rfl | he
        · exact hk
        · exact hl e he
      · rcases List.mem_cons.1 he with rfl | he
        · exact hl e (List.mem_cons_self ..)
        · exact ih (fun x hx => hl x (List.mem_cons_of_mem _ hx)) e he

/-- Recording an occurrence keeps the entries in rising rank (R176). -/
theorem recordNotice_sorted {l : List NoticeEntry} (k : NoticeKey) (h : (l.map fun e => e.key.rank).Pairwise (· < ·)) :
    ((recordNotice l k).map fun e => e.key.rank).Pairwise (· < ·) := by
  induction l with
  | nil => simp [recordNotice]
  | cons a l ih =>
    simp only [List.map_cons, List.pairwise_cons, List.mem_map, forall_exists_index, and_imp, forall_apply_eq_imp_iff₂] at h
    unfold recordNotice
    split
    · rename_i hk
      rw [hk] at h
      simpa using h
    · rename_i hne
      split
      · rename_i hlt
        simp only [List.map_cons, List.pairwise_cons, List.mem_cons, List.mem_map, forall_eq_or_imp, forall_exists_index, and_imp,
          forall_apply_eq_imp_iff₂]
        exact ⟨⟨hlt, fun e he => hlt.trans (h.1 e he)⟩, h⟩
      · rename_i hge
        have hlt : a.key.rank < k.rank := lt_of_le_of_ne (not_lt.1 hge) fun e => hne (rank_injective e)
        simp only [List.map_cons, List.pairwise_cons, List.mem_map, forall_exists_index, and_imp, forall_apply_eq_imp_iff₂]
        exact ⟨recordNotice_rank hlt h.1, ih h.2⟩

/-- Recording an occurrence keeps a property of every entry that the new count and a count of 1 have. -/
theorem recordNotice_forall {l : List NoticeEntry} {k : NoticeKey} {P : NoticeEntry → Prop} (hl : ∀ e ∈ l, P e)
    (hnew : P ⟨k, 1⟩) (hold : ∀ n, P ⟨k, n⟩ → P ⟨k, satSucc 255 n⟩) : ∀ e ∈ recordNotice l k, P e := by
  induction l with
  | nil => simpa [recordNotice] using hnew
  | cons a l ih =>
    have ha := hl a (List.mem_cons_self ..)
    have ht := fun e he => hl e (List.mem_cons_of_mem _ he)
    unfold recordNotice
    split
    · rename_i hk
      intro e he
      rcases List.mem_cons.1 he with rfl | he
      · exact hold _ (by rw [← hk]; exact ha)
      · exact ht e he
    · split
      · intro e he
        rcases List.mem_cons.1 he with rfl | he
        · exact hnew
        · exact hl e he
      · intro e he
        rcases List.mem_cons.1 he with rfl | he
        · exact ha
        · exact ih ht e he

/-- The count of a key in a set of entries, 0 without one. -/
def countIn (l : List NoticeEntry) (k : NoticeKey) : Nat :=
  match l.find? fun e => e.key = k with
  | some e => e.count
  | none => 0

theorem noticeCount_eq (s : State) (k : NoticeKey) : noticeCount s k = countIn s.notices.entries k := rfl

/-- Recording an occurrence counts one more for its key, held at 255, and nothing for another (R177). -/
theorem countIn_recordNotice {l : List NoticeEntry} (k j : NoticeKey) (h : (l.map fun e => e.key.rank).Pairwise (· < ·)) :
    countIn (recordNotice l k) j = if j = k then min 255 (countIn l k + 1) else countIn l j := by
  have key : ∀ (e : NoticeEntry) (l : List NoticeEntry), countIn (e :: l) j = if e.key = j then e.count else countIn l j := by
    intro e l; unfold countIn; by_cases hj : e.key = j <;> simp [hj]
  have key' : ∀ (e : NoticeEntry) (l : List NoticeEntry), countIn (e :: l) k = if e.key = k then e.count else countIn l k := by
    intro e l; unfold countIn; by_cases hj : e.key = k <;> simp [hj]
  induction l with
  | nil =>
    rw [recordNotice, key]
    by_cases hj : j = k
    · subst hj; simp [countIn]
    · rw [if_neg (fun e => hj e.symm), if_neg hj]
  | cons a l ih =>
    simp only [List.map_cons, List.pairwise_cons, List.mem_map, forall_exists_index, and_imp, forall_apply_eq_imp_iff₂] at h
    unfold recordNotice
    split
    · rename_i hk
      rw [key, key, key', hk, if_pos rfl]
      by_cases hj : j = k
      · subst hj; simp [satSucc]
      · rw [if_neg (fun e : k = j => hj e.symm), if_neg hj, if_neg (fun e : k = j => hj e.symm)]
    · rename_i hne
      split
      · rename_i hlt
        have hnone : countIn (a :: l) k = 0 := by
          unfold countIn
          rw [List.find?_eq_none.2]
          intro e he
          have hr : k.rank < e.key.rank := by
            rcases List.mem_cons.1 he with rfl | he
            · exact hlt
            · exact hlt.trans (h.1 e he)
          simpa using fun hk : e.key = k => absurd (hk ▸ hr) (lt_irrefl _)
        rw [key, hnone]
        by_cases hj : j = k
        · subst hj; simp
        · rw [if_neg (fun e => hj e.symm), if_neg hj]
      · rw [key, key, key', ih h.2, if_neg hne]
        by_cases hj : j = k
        · subst hj; rw [if_neg hne, if_pos rfl, if_pos rfl]
        · rw [if_neg hj, if_neg hj]

/-- An occurrence reported to the notice unit: counted for its key unless its kind is masked, and for no other key (R177, R182). -/
theorem noticeCount_raise {s : State} (hs : NoticeLaw s) (k j : NoticeKey) :
    noticeCount (s.raise k) j = if j = k then countAfter s k True else noticeCount s j := by
  rw [noticeCount_eq, State.raise_notices]
  by_cases hm : s.notices.masks.get k.kind = true
  · rw [if_pos hm]
    split
    · rename_i hj; subst hj; simp [countAfter, hm, noticeCount_eq]
    · rfl
  · rw [if_neg hm]
    rw [countIn_recordNotice k j hs.1]
    simp [countAfter, hm, noticeCount_eq]

/-- Reporting an occurrence keeps the canonical form of the set. -/
theorem noticeLaw_raise {s : State} (hs : NoticeLaw s) (k : NoticeKey) : NoticeLaw (s.raise k) := by
  unfold NoticeLaw
  rw [State.raise_masks, State.raise_notices]
  split
  · exact hs
  · rename_i hm
    refine ⟨recordNotice_sorted k hs.1, recordNotice_forall hs.2 ⟨le_refl 1, Nat.le_of_ble_eq_true rfl, by simpa using hm⟩ ?_⟩
    intro n hn
    simp only [satSucc]
    exact ⟨by omega, by omega, hn.2.2⟩

/-- Withdrawing entries keeps the canonical form of the set. -/
theorem noticeLaw_filter {s t : State} (hs : NoticeLaw s) (q : NoticeEntry → Bool)
    (ht : t.notices = { s.notices with entries := s.notices.entries.filter q }) : NoticeLaw t := by
  unfold NoticeLaw
  rw [ht]
  exact ⟨List.Pairwise.sublist (List.filter_sublist.map _) hs.1, fun e he => hs.2 e (List.mem_filter.1 he).1⟩

/-- The law is about the notice unit alone. -/
theorem noticeLaw_congr {s t : State} (h : t.notices = s.notices) : NoticeLaw t ↔ NoticeLaw s := by unfold NoticeLaw; rw [h]

/-- The set is in canonical form after release of RESETn (R183). -/
theorem noticeLaw_reset : NoticeLaw State.reset := by decide

end Sys2Proof.Safety
end

