-- ==== Sys2Proof/Laws/Store.lean ====
section
/-! SUPPORT. The picture store in its canonical form: what storing a line does to the lines of a slot and to a read of it, and that every
operation on a slot keeps the form (R73, R77, R82). -/

namespace Sys2Proof.Safety

open Sys2Proof.Machine

/-! ### The lines received -/

@[simp] theorem mem_insertLine {l : List Nat} {n m : Nat} : m ∈ insertLine l n ↔ m = n ∨ m ∈ l := by
  induction l with
  | nil => simp [insertLine]
  | cons a l ih =>
    unfold insertLine
    split
    · exact List.mem_cons
    · split
      · rename_i h; subst h; simp
      · simp only [List.mem_cons, ih]; tauto

/-- Joining a line to the lines received keeps them rising (R52). -/
theorem insertLine_sorted {l : List Nat} (n : Nat) (h : l.Pairwise (· < ·)) : (insertLine l n).Pairwise (· < ·) := by
  induction l with
  | nil => exact List.pairwise_singleton _ _
  | cons a l ih =>
    obtain ⟨ha, hl⟩ := List.pairwise_cons.1 h
    unfold insertLine
    split
    · rename_i hn
      refine List.pairwise_cons.2 ⟨fun b hb => ?_, h⟩
      rcases List.mem_cons.1 hb with rfl | hb
      · exact hn
      · exact hn.trans (ha b hb)
    · split
      · exact h
      · refine List.pairwise_cons.2 ⟨fun b hb => ?_, ih hl⟩
        rcases mem_insertLine.1 hb with rfl | hb
        · omega
        · exact ha b hb

/-! ### The lines stored -/

/-- The indices of the stored lines follow the lines received. -/
theorem storeLine_keys (l : List (Nat × List Colour)) (n : Nat) (px : List Colour) :
    (storeLine l n px).map Prod.fst = insertLine (l.map Prod.fst) n := by
  induction l with
  | nil => rfl
  | cons a l ih =>
    obtain ⟨m, q⟩ := a
    unfold storeLine
    simp only [List.map_cons, insertLine]
    split
    · rfl
    · split
      · rfl
      · rw [List.map_cons, ih]

theorem mem_storeLine {l : List (Nat × List Colour)} {n : Nat} {px : List Colour} {e : Nat × List Colour} (h : e ∈ storeLine l n px) :
    e = (n, px) ∨ e ∈ l := by
  induction l with
  | nil => exact .inl (List.mem_singleton.1 h)
  | cons a l ih =>
    obtain ⟨m, q⟩ := a
    unfold storeLine at h
    split at h
    · exact List.mem_cons.1 h
    · split at h
      · exact .inr h
      · rcases List.mem_cons.1 h with h | h
        · exact .inr (h ▸ List.mem_cons_self ..)
        · exact (ih h).imp id (List.mem_cons_of_mem _)

/-- A line not yet stored is found where it was stored, and every other line as before. -/
theorem find_storeLine {l : List (Nat × List Colour)} {n : Nat} {px : List Colour} (hn : n ∉ l.map Prod.fst) (m : Nat) :
    (storeLine l n px).find? (fun e => e.1 == m) = if m = n then some (n, px) else l.find? fun e => e.1 == m := by
  have key : ∀ (e : Nat × List Colour) (l : List (Nat × List Colour)),
      (e :: l).find? (fun e => e.1 == m) = if e.1 = m then some e else l.find? fun e => e.1 == m := by
    intro e l; by_cases h : e.1 = m <;> simp [h]
  induction l with
  | nil => rw [storeLine, key]; simp only [eq_comm]
  | cons a l ih =>
    obtain ⟨k, q⟩ := a
    obtain ⟨hk, hl⟩ : ¬n = k ∧ n ∉ l.map Prod.fst := by simpa using hn
    unfold storeLine
    split
    · rw [key]; simp only [eq_comm]
    · rw [key, key, ih hl]
      dsimp only
      by_cases hm : k = m
      · subst hm; rw [if_pos rfl, if_pos rfl, if_neg (fun e => hk e.symm)]
      · rw [if_neg hm, if_neg hm]

/-- Storing a line of the stored width keeps a slot's canonical form. -/
theorem linesCanonical_store {z : Slot} {n w h : Nat} {px : List Colour} (hz : linesCanonical z = true) (hg : z.geometry = some (w, h))
    (hn : n < h) (hp : px.length = w) : linesCanonical { z with lines := storeLine z.lines n px } = true := by
  unfold linesCanonical at hz ⊢
  simp only [hg, Bool.and_eq_true, decide_eq_true_eq, List.all_eq_true] at hz ⊢
  refine ⟨storeLine_keys z.lines n px ▸ insertLine_sorted n hz.1, fun e he => ?_⟩
  rcases mem_storeLine he with rfl | he
  · exact ⟨hn, hp⟩
  · exact hz.2 e he

/-! ### Every operation on a slot keeps its form -/

@[simp] theorem linesCanonical_empty : linesCanonical .empty = true := rfl

@[simp] theorem linesCanonical_allocate (z : Slot) (n w h : Nat) : linesCanonical (z.allocate n w h) = true := rfl

@[simp] theorem linesCanonical_acquire (z : Slot) : linesCanonical z.acquire = linesCanonical z := rfl

@[simp] theorem linesCanonical_finish (z : Slot) : linesCanonical z.finish = linesCanonical z := rfl

theorem linesCanonical_freeIfUnused {z : Slot} (h : linesCanonical z = true) : linesCanonical z.freeIfUnused = true := by
  unfold Slot.freeIfUnused; split
  · rfl
  · exact h

theorem linesCanonical_release {z : Slot} (h : linesCanonical z = true) : linesCanonical z.release = true :=
  linesCanonical_freeIfUnused (z := { z with holders := z.holders - 1 }) h

theorem linesCanonical_unmark {z : Slot} (h : linesCanonical z = true) : linesCanonical z.unmark = true := by
  unfold Slot.unmark; split
  · exact linesCanonical_freeIfUnused (z := { z with latest := false }) h
  · exact h

/-- The store is in canonical form after release of RESETn: every slot FREE (R88). -/
theorem lineLaw_reset : LineLaw State.reset := by decide +kernel

/-! ### Reading a slot -/

/-- Nothing can be read of a FREE slot's cleared record (R82). -/
@[simp] theorem read_empty (column line : Nat) : Slot.empty.read column line = none := rfl

/-- A line just stored reads as its pixels, every other line as before (R77, R82). -/
theorem read_store {z : Slot} {n w h : Nat} {px : List Colour} (hg : z.geometry = some (w, h)) (hn : n < h) (hp : px.length = w)
    (hz : n ∉ z.lines.map Prod.fst) (column line : Nat) :
    Slot.read { z with lines := storeLine z.lines n px } column line = if line = n then px[column]? else z.read column line := by
  unfold Slot.read
  simp only [hg, find_storeLine hz]
  by_cases hl : line = n
  · subst hl
    simp only [hn, decide_true, Bool.true_and, if_true]
    split
    · rfl
    · rename_i hc; exact (List.getElem?_eq_none (by simpa [hp] using hc)).symm
  · simp only [hl, if_false]

end Sys2Proof.Safety
end

