-- ==== Sys2Proof/Tests/Slice0.lean ====
section
/-! SUPPORT. The model's own tests: the smoke test of `Instr.wf`, command frames written out byte by byte from R187 and R188, at most two
small steps for each row of the opcode table with results taken from the manual's worked examples or worked by hand from its rules, and
for each statement with hypotheses a witness that meets them. -/

namespace Sys2Proof.Tests

set_option Elab.async false

open Sys2Proof Sys2Proof.Machine Sys2Proof.Safety

/-! ### Well-formedness: an ill-formed command for each check -/

/-- A whole image that a frame can carry, with this choice list. -/
def rawImage (choices : Option (List Byte)) : RawImage :=
  { source := 0, sourceRect := some ⟨0, 0, 1920, 720⟩, targetRect := ⟨0, 0, 1920, 720⟩, layer := 0, opacity := 256, blend := 0,
    key := none, policy := 1, alternate := none, fill := ⟨0, 0, 0⟩, holdLimit := 0, choices := choices }

theorem test_wf_open_refuses_nine_choices :
    (Instr.openPlacement 0 0 0 (some (rawImage (some [0, 0, 0, 0, 0, 0, 0, 0, 0])))).wf = false ∧
    (Instr.openPlacement 0 0 0 (some (rawImage (some [0, 0, 0, 0, 0, 0, 0, 0])))).wf = true := by decide

theorem test_wf_amend_refuses_sixteen_entries :
    (Instr.amend 0 0 0 (some (List.replicate 16 (.layer 1)))).wf = false ∧
    (Instr.amend 0 0 0 (some (List.replicate 15 (.layer 1)))).wf = true := by decide

theorem test_wf_amend_refuses_nine_choices :
    (Instr.amend 0 0 0 (some [.choices (some [0, 0, 0, 0, 0, 0, 0, 0, 0])])).wf = false ∧
    (Instr.amend 0 0 0 (some [.choices none])).wf = true := by decide

theorem test_wf_commit_refuses_five_screens :
    (Instr.commit (some [0, 1, 2, 3, 0])).wf = false ∧ (Instr.commit (some [])).wf = true := by decide

theorem test_wf_mask_notices_refuses_none_and_ten :
    (Instr.maskNotices (some [])).wf = false ∧ (Instr.maskNotices (some (List.replicate 10 (1, 0)))).wf = false ∧
    (Instr.maskNotices (some [(1, 0)])).wf = true := by decide

theorem test_wf_rejection_refuses_a_reason_that_does_not_fit :
    (Instr.commandFrameRejected .shortFrame (some 1)).wf = false ∧ (Instr.commandFrameRejected .bodyShort none).wf = false ∧
    (Instr.commandFrameRejected .bodyShort (some 23)).wf = false ∧ (Instr.commandFrameRejected .unknownCode (some 22)).wf = false ∧
    (Instr.commandFrameRejected .unknownCode (some 240)).wf = false ∧ (Instr.commandFrameRejected .unknownCode (some 23)).wf = true := by
  decide

/-! ### Command frames, byte by byte (R187, R188) -/

/-- Field by field: screen S1, ORDINARY, not selectable; source B, its rectangle 0, 0, 1920, 720 (1920 is 128 + 7 × 256, 720 is
208 + 2 × 256), the target the same, layer 2, opacity 192, ADD, key LT SINGLE 0, 500, 0 (500 is 244 + 1 × 256), ALTERNATE with D, fill
1023, 0, 0, hold limit 3, no choice list. -/
theorem test_decode_open :
    decodeTransaction
      ([1, 45, 1, 0, 0] ++ [1] ++ [1, 0, 0, 0, 0, 128, 7, 208, 2] ++ [0, 0, 0, 0, 128, 7, 208, 2] ++ [2] ++ [192, 0] ++ [1] ++
       [1, 1, 1, 0, 0, 244, 1, 0, 0] ++ [2] ++ [1, 3] ++ [255, 3, 0, 0, 0, 0] ++ [3] ++ [0]) =
      some (.openPlacement 1 0 0 (some
        { source := 1, sourceRect := some ⟨0, 0, 1920, 720⟩, targetRect := ⟨0, 0, 1920, 720⟩, layer := 2, opacity := 192, blend := 1,
          key := some ⟨1, 1, ⟨0, 500, 0⟩⟩, policy := 2, alternate := some 3, fill := ⟨1023, 0, 0⟩, holdLimit := 3, choices := none })) := by
  decide +kernel

/-- AMEND of handle 0, expected generation 1, two entries: choice list A, C, B (field 12) and target 0, 0, 1600, 640 (field 3). -/
theorem test_decode_amend :
    decodeTransaction ([2, 18, 0, 1, 0, 2] ++ [12, 1, 3, 0, 2, 1] ++ [3, 0, 0, 0, 0, 64, 6, 128, 2]) =
      some (.commandFrameRejected .bodyLong (some 2)) ∧
    decodeTransaction ([2, 19, 0, 1, 0, 2] ++ [12, 1, 3, 0, 2, 1] ++ [3, 0, 0, 0, 0, 64, 6, 128, 2]) =
      some (.amend 0 1 0 (some [.choices (some [0, 2, 1]), .targetRect ⟨0, 0, 1600, 640⟩])) := by decide +kernel

/-- An AMEND entry that names the class is well framed (R188), and a field number of 16 ends the port's work (R169). -/
theorem test_decode_amend_fixed_and_unknown :
    decodeTransaction [2, 6, 5, 9, 1, 1, 14, 1] = some (.amend 5 9 1 (some [.fixedClass 1])) ∧
    decodeTransaction [2, 6, 5, 9, 1, 1, 16, 1] = some (.amend 5 9 1 none) := by decide +kernel

theorem test_decode_placement_commands :
    decodeTransaction [3, 3, 1, 1, 0] = some (.retire 1 1 0) ∧ decodeTransaction [4, 3, 2, 0, 2] = some (.commit (some [0, 2])) ∧
    decodeTransaction [4, 1, 5] = some (.commit none) ∧ decodeTransaction [5, 1, 63] = some (.freeze 63) ∧
    decodeTransaction [6, 1, 1] = some (.thaw 1) ∧ decodeTransaction [7, 1, 64] = some (.lookup 64) ∧
    decodeTransaction [8, 1, 2] = some (.listScreen 2) ∧ decodeTransaction [9, 1, 1] = some (.listSource 1) := by decide +kernel

/-- SET_SOURCE of D as bring-up gives it (section 11.3): 1280 by 960, depth 10, P 33,333, tolerance 1,000, N 2, M 2. -/
theorem test_decode_source_commands :
    decodeTransaction [10, 12, 3, 0, 5, 192, 3, 10, 53, 130, 232, 3, 2, 2] = some (.setSource 3 1280 960 10 33333 1000 2 2) ∧
    decodeTransaction [11, 1, 0] = some (.resetSource 0) ∧ decodeTransaction [12, 1, 3] = some (.querySource 3) := by decide +kernel

theorem test_decode_screen_commands :
    decodeTransaction [13, 7, 1, 128, 7, 208, 2, 8, 20] = some (.setScreen 1 1920 720 8 20) ∧
    decodeTransaction [14, 9, 2, 1, 0, 2, 0, 3, 0, 0, 3] = some (.setScreenTone 2 ⟨1, 2, 3⟩ 768) ∧
    decodeTransaction [15, 1, 0] = some (.enableLink 0) ∧ decodeTransaction [16, 1, 1] = some (.disableLink 1) ∧
    decodeTransaction [17, 1, 2] = some (.resetLink 2) ∧ decodeTransaction [18, 1, 3] = some (.queryScreen 3) := by decide +kernel

/-- SET_DOMAIN with and without its lock part, REAR on D with a lock delay of 2,000. -/
theorem test_decode_domain_and_notice_commands :
    decodeTransaction [19, 8, 1, 1, 27, 65, 1, 3, 208, 7] = some (.setDomain 1 1 16667 (.present 3 2000)) ∧
    decodeTransaction [19, 5, 0, 0, 27, 65, 0] = some (.setDomain 0 0 16667 .absent) ∧
    decodeTransaction [19, 5, 0, 0, 27, 65, 2] = some (.setDomain 0 0 16667 .unknown) ∧
    decodeTransaction [20, 1, 1] = some (.queryDomain 1) ∧ decodeTransaction [21, 0] = some .takeNotice ∧
    decodeTransaction [22, 3, 1, 7, 0] = some (.maskNotices (some [(7, 0)])) := by decide +kernel

/-- The six reasons of R169, and a fetch. -/
theorem test_decode_rejections_and_fetch :
    decodeTransaction [7] = some (.commandFrameRejected .shortFrame none) ∧
    decodeTransaction [23, 1, 0] = some (.commandFrameRejected .unknownCode (some 23)) ∧
    decodeTransaction [7, 251, 0] = some (.commandFrameRejected .lengthOutOfRange (some 7)) ∧
    decodeTransaction [2, 9, 0, 1, 0, 1, 5, 200, 0] = some (.commandFrameRejected .bodyShort (some 2)) ∧
    decodeTransaction [7, 1, 0, 0] = some (.commandFrameRejected .bodyLong (some 7)) ∧
    decodeTransaction [7, 2, 0, 0] = some (.commandFrameRejected .lengthMismatch (some 7)) ∧
    decodeTransaction [240, 9, 9] = some (.fetchTransaction 2) ∧ decodeTransaction [] = none := by decide +kernel

/-- The port byte by byte: a whole LOOKUP joins the queue when CS rises (log entry 20), and CS low at release keeps the port idle (R167). -/
theorem test_port_hands_over_at_the_rise_of_cs :
    (((((State.reset.csFall).clockByte 7).clockByte 1).clockByte 0).csRise).pending = [.lookup 0] ∧
    ({ State.reset with port := { Port.reset with csLow := true } }.clockByte 7).csRise = State.reset := by decide +kernel

/-! ### Small states and one step -/

/-- The state a command leaves. -/
def after (c : Instr) (s : State) : State :=
  match exec c s with
  | .next t => t
  | _ => s

/-- The response a command leaves: its code and body. -/
def answer (c : Instr) (s : State) : Option (ResultCode × List Byte) := (after c s).port.buffer.map fun r => (r.code, r.body)

/-- The image of a command body. -/
def image (m : RawImage) : Image := (imageOf m).getD .blank

/-- A SOLID image of one layer over a target. -/
def solid (layer : Nat) (target : Rect) : Image :=
  { Image.blank with target := target, layer := layer, opacity := 256, policy := .fill }

/-- A LIVE record of class ORDINARY as application and a first view decision leave it. -/
def live (sc : Screen) (m : Image) (join : Nat) : Placement :=
  { Placement.opened sc .ordinary false m with
      committed := some m, view := some .showing, liveSince := some 1, joinPosition := some join }

/-- Put a record in the table. -/
def put (s : State) (h : Handle) (p : Placement) : State := s.setRecord h ⟨1, some p⟩

/-- A READY slot of 16 by 16 pixels. -/
def ready (latest : Bool) (holders frame : Nat) (lines : List (Nat × List Colour)) : Slot :=
  ⟨.ready, latest, holders, frame, some (16, 16), lines⟩

/-- The inputs of the validation examples of section 1.5: B 200 by 80, C 1280 by 720, D 1280 by 960. -/
def examples : State :=
  ((State.reset.modInput .b fun c => { c with config := { c.config with width := 200, height := 80 } }).modInput .c
    fun c => { c with config := { c.config with width := 1280 } }).modInput .d
    fun c => { c with config := { c.config with width := 1280, height := 960 } }

/-- The selectable image of the first validation example: source A, choice list A, C, A. -/
def selectable : RawImage := { rawImage (some [0, 2, 0]) with sourceRect := none }

/-- The examples' state with that image opened on S2 as handle 0. -/
def opened : State := after (.openPlacement 2 0 1 (some selectable)) examples

/-! ### Commands on placements -/

/-- Session step 1 of Chapter 1: OK, handle 0, generation 1. -/
theorem test_open_takes_handle_0 :
    answer (.openPlacement 2 0 1 (some selectable)) examples = some (.ok, [0, 1]) ∧ opened.placementCount .s2 = 1 := by decide +kernel

/-- The last two validation examples of section 1.5: SOURCE_BOUNDS past D's width, SAFETY_RULE for hold limit 0, BAD_FIELD first for a
target past the screen. -/
theorem test_open_refusals :
    answer (.openPlacement 1 0 0 (some { rawImage none with source := 3, sourceRect := some ⟨400, 300, 960, 720⟩ })) examples =
      some (.sourceBounds, []) ∧
    answer (.openPlacement 1 0 0 (some { rawImage none with source := 3, sourceRect := some ⟨320, 240, 960, 720⟩ })) examples =
      some (.ok, [0, 1]) ∧
    answer (.openPlacement 1 1 0 (some { rawImage none with opacity := 300 })) examples = some (.safetyRule, []) ∧
    answer (.openPlacement 1 1 0 (some { rawImage none with targetRect := ⟨1200, 100, 800, 600⟩ })) examples =
      some (.badField, []) := by decide +kernel

/-- The second and third validation examples: B cannot be scaled to 1920, and can to 1600 by 640. -/
theorem test_amend_checks_the_scale_of_each_choice :
    answer (.amend 0 1 0 (some [.choices (some [0, 2, 1])])) opened = some (.scaleRange, []) ∧
    answer (.amend 0 1 0 (some [.choices (some [0, 2, 1]), .targetRect ⟨0, 0, 1600, 640⟩])) opened = some (.ok, [2]) := by
  decide +kernel

/-- Session step 4: a generation that no longer matches, and an empty list, a field named twice and a fixed field. -/
theorem test_amend_refusals :
    answer (.amend 0 0 0 (some [.fill ⟨0, 0, 512⟩])) opened = some (.staleGeneration, []) ∧
    answer (.amend 0 1 0 (some [])) opened = some (.badField, []) ∧
    answer (.amend 0 1 0 (some [.layer 1, .layer 1])) opened = some (.badField, []) ∧
    answer (.amend 0 1 0 (some [.fixedScreen 0])) opened = some (.fieldFixed, []) := by decide +kernel

/-- Session step 5: a NEW record is FREE at once, its generation kept. -/
theorem test_retire_new : answer (.retire 0 1 0) opened = some (.ok, [1, 0]) ∧ (after (.retire 0 1 0) opened).record 0 = ⟨1, none⟩ := by
  decide +kernel

/-- Session step 10: a LIVE record stays LIVE with its retirement staged. -/
theorem test_retire_live :
    answer (.retire 0 1 0) (put .reset 0 (live .s0 (solid 0 ⟨0, 0, 9, 9⟩) 0)) = some (.ok, [2, 2]) ∧
    answer (.retire 0 2 0) (after (.retire 0 1 0) (put .reset 0 (live .s0 (solid 0 ⟨0, 0, 9, 9⟩) 0))) = some (.wrongState, []) := by
  decide +kernel

/-- The live list of the worked example of section 2.4, with its staged changes. -/
def ordering (opened3 : Placement) : State :=
  let full : Rect := ⟨0, 0, 1920, 720⟩
  let s := put (put .reset 2 (live .s1 (solid 0 full) 0)) 4 { live .s1 (solid 1 full) 1 with retireStaged := true }
  let s := put (put s 7 { live .s1 (solid 1 full) 2 with staged := solid 3 full }) 5
    { live .s1 (solid 3 full) 3 with staged := { solid 3 full with opacity := 9 } }
  put (put s 9 (.opened .s1 .ordinary false (solid 1 full))) 3 opened3

/-- The COMMIT of that example passes with five records armed, and the frame start gives the list 2, 9, 5, 3, 7. -/
theorem test_commit_and_application_order :
    answer (.commit (some [1])) (ordering (.opened .s1 .ordinary false (solid 3 ⟨0, 0, 1920, 720⟩))) = some (.ok, [1, 5]) ∧
    ((after (.commit (some [1])) (ordering (.opened .s1 .ordinary false (solid 3 ⟨0, 0, 1920, 720⟩)))).applyArmed .s1 7).liveList .s1 =
      [2, 9, 5, 3, 7] := by decide +kernel

/-- The same with handle 3 opened as a SAFETY record: OCCLUSION on S1 by handle 7; and the line-coverage example of section 2.4: S0, line
290, coverage 7. -/
theorem test_commit_refusals :
    answer (.commit (some [1])) (ordering { Placement.opened .s1 .ordinary false (solid 3 ⟨1200, 100, 600, 200⟩) with cls := .safety }) =
      some (.occlusion, [1, 3, 7]) ∧
    answer (.commit (some [0]))
      ([(1, 0, 720), (3, 0, 360), (5, 100, 200), (6, 200, 100), (8, 250, 300), (10, 280, 40), (11, 290, 10)].foldl
        (fun s (e : Handle × Nat × Nat) => put s e.1 (.opened .s0 .ordinary false (solid 0 ⟨0, e.2.1, 10, e.2.2⟩))) .reset) =
      some (.overlapLimit, [0, 34, 1, 7]) := by decide +kernel

/-- The state before G1 of the freeze example of Chapter 7: handle 4 on S1 shows A3 with frame 18, and A4 holds the latest frame 19. -/
def freezing : State :=
  let m : Image := { solid 0 ⟨0, 0, 16, 16⟩ with source := .input .a, sourceRect := some ⟨0, 0, 16, 16⟩ }
  (put { State.reset with timeBase := 16667 } 4 { live .s1 m 0 with latched := some ⟨.a, .k3⟩, lastFrame := 18 }).modInput .a fun c =>
    { c with
        config := { c.config with width := 16, height := 16 }, monitor := .locked
        slots := ⟨.empty, .empty, .empty, ready false 1 18 [], ready true 0 19 []⟩ }

/-- FREEZE, and G1: the record freezes on the slot it held (R135). -/
theorem test_freeze :
    answer (.freeze 4) freezing = some (.ok, [1, 0]) ∧
    ((after (.domainFrameStart .front) (after (.freeze 4) freezing)).placement 4).map (fun p => (p.frozen, p.view, p.latched, p.lastFrame)) =
      some (true, some .frozen, some ⟨.a, .k3⟩, 18) := by decide +kernel

/-- THAW on the record not frozen, and the frame start: the latest slot is latched and A3 becomes FREE. -/
theorem test_thaw :
    answer (.thaw 4) freezing = some (.ok, [1, 1]) ∧
    ((after (.domainFrameStart .front) (after (.thaw 4) freezing)).placement 4).map (fun p => (p.frozen, p.view, p.latched, p.lastFrame)) =
      some (false, some .showing, some ⟨.a, .k4⟩, 19) ∧
    (after (.domainFrameStart .front) (after (.thaw 4) freezing)).slot ⟨.a, .k3⟩ = .empty := by decide +kernel

/-- LOOKUP of a FREE and of a NEW record, item by item (R23, R188). -/
theorem test_lookup :
    answer (.lookup 63) .reset = some (.ok, [0, 0]) ∧ answer (.lookup 64) .reset = some (.badField, []) ∧
    answer (.lookup 0) opened = some (.ok,
      [1, 1, 2, 0, 1, 0, 0, 0, 0, 0, 1] ++ [0, 0, 0, 0, 0, 0, 128, 7, 208, 2, 0, 0, 1, 0, 0, 1, 0, 0, 0, 0, 0, 0, 0, 0, 1, 3, 0, 2, 0] ++
      [0, 0, 0, 0, 0, 0, 0]) := by decide +kernel

/-- LIST_SCREEN: handle and committed layer from the bottom (R24). -/
theorem test_list_screen :
    answer (.listScreen 1) (ordering (.opened .s1 .ordinary false (solid 3 ⟨0, 0, 1920, 720⟩))) = some (.ok, [4, 2, 0, 4, 1, 7, 1, 5, 3]) ∧
    answer (.listScreen 4) .reset = some (.badField, []) := by decide +kernel

/-- LIST_SOURCE of C finds it in the choice list of handle 0 (R25). -/
theorem test_list_source :
    answer (.listSource 2) opened = some (.ok, [1, 0, 2, 1]) ∧ answer (.listSource 1) opened = some (.ok, [0]) := by decide +kernel

/-! ### Commands on inputs, screens, domains and notices -/

/-- Bring-up step 1: D configured and ABSENT; and a lock delay and an image that stand in the way (R67). -/
theorem test_set_source :
    answer (.setSource 3 1280 960 10 33333 1000 2 2) .reset = some (.ok, []) ∧
    ((after (.setSource 3 1280 960 10 33333 1000 2 2) .reset).input .d).config = ⟨1280, 960, 10, 33333, 1000, 2, 2⟩ ∧
    answer (.setSource 0 1280 720 8 16667 500 3 2) (put .reset 5 (live .s0 (image (rawImage none)) 0)) = some (.sourceBounds, [5]) := by
  decide +kernel

/-- The first setting out of range, and the domain whose lock delay is too long (R67). -/
theorem test_set_source_refusals :
    answer (.setSource 0 1920 15 9 16667 500 3 2) .reset = some (.badField, [1]) ∧
    answer (.setSource 0 1920 720 8 16667 2001 0 2) .reset = some (.badField, [4]) ∧
    answer (.setSource 3 1920 720 8 16667 500 3 2)
      (State.reset.modDomain .rear fun c => { c with settings := ⟨.lock .d 16167, 16667⟩, mode := .holdover }) = some (.badField, [1]) := by
  decide +kernel

/-- RESET_SOURCE of a LOCKED input: the held slot stays, the latest one without holders is freed, and the domain locked to it holds over
(R70, R86, R95). -/
theorem test_reset_source :
    ((after (.resetSource 0) freezing).input .a).monitor = .absent ∧
    (after (.resetSource 0) freezing).slot ⟨.a, .k3⟩ = ready false 1 18 [] ∧ (after (.resetSource 0) freezing).slot ⟨.a, .k4⟩ = .empty ∧
    ((after (.resetSource 0) (freezing.modDomain .front fun c => { c with settings := ⟨.lock .a 0, 16667⟩, mode := .locked })).domain
      .front).mode = .holdover := by decide +kernel

/-- QUERY_SOURCE after the stall example of Chapter 3: frame number 9, timestamp 1,180,001, measured period 16,700, bad frames 5. -/
theorem test_query_source :
    answer (.querySource 1) (({ State.reset with timeBase := 1190000 }).modInput .b fun c =>
      { c with monitor := .locked, frameNumber := 9, timestamp := 1180001, measuredPeriod := some 16700, senderTag := 7, badFrames := 5 }) =
    some (.ok, [128, 7, 208, 2, 8, 27, 65, 244, 1, 3, 2] ++ [2, 0, 0, 0] ++ [9, 0] ++ [97, 1, 18, 0] ++ [1, 60, 65, 0, 0] ++ [7, 0, 5, 0, 0, 0] ++
      [0, 0, 0, 0, 0, 0, 0, 0, 0, 0, 0, 0, 0, 0, 0, 0, 0, 0, 0, 0, 0, 0, 0, 0, 0] ++ [112, 40, 18, 0]) := by decide +kernel

/-- Bring-up step 2, and the refusals of R162 in order. -/
theorem test_set_screen :
    ((after (.setScreen 1 1920 720 8 20) .reset).link .s1).config = ⟨1920, 720, 8, 20⟩ ∧
    answer (.setScreen 1 319 239 9 0) .reset = some (.badField, [0]) ∧
    answer (.setScreen 2 1920 720 8 0) opened = some (.screenInUse, []) ∧
    answer (.setScreen 2 1920 720 8 0) (after (.enableLink 2) opened) = some (.wrongState, []) := by decide +kernel

/-- Channels clamped to 1023 and the gain to 2047 (R163). -/
theorem test_set_screen_tone :
    answer (.setScreenTone 3 ⟨2000, 5, 1023⟩ 3000) .reset = some (.ok, [255, 3, 5, 0, 255, 3, 255, 7]) ∧
    ((after (.setScreenTone 3 ⟨2000, 5, 1023⟩ 3000) .reset).link .s3).tone = ⟨⟨1023, 5, 1023⟩, 2047⟩ := by decide +kernel

/-- ENABLE_LINK in DOWN trains the link with a notice, and is refused in any other state (R159). -/
theorem test_enable_link :
    ((after (.enableLink 0) .reset).link .s0).state = .training ∧
    (after (.enableLink 0) .reset).notices.entries = [⟨.linkState .s0, 1⟩] ∧
    answer (.enableLink 0) (after (.enableLink 0) .reset) = some (.wrongState, []) := by decide +kernel

/-- A link in this state. -/
def linked (sc : Screen) (f : LinkContext → LinkContext) : State := ({ State.reset with timeBase := 16667 }).modLink sc f

/-- DISABLE_LINK of a HALTED link, and of one that is DOWN, which raises nothing (R160). -/
theorem test_disable_link :
    ((after (.disableLink 2) (linked .s2 fun l => { l with state := .halted, windowCount := 32 })).link .s2).windowCount = 0 ∧
    (after (.disableLink 2) .reset).notices.entries = [] ∧ answer (.disableLink 4) .reset = some (.badField, []) := by decide +kernel

/-- RESET_LINK of a HALTED link, as in interval 8 of the example of Chapter 8, and in RESETTING, as in interval 9. -/
theorem test_reset_link :
    ((after (.resetLink 2) (linked .s2 fun l => { l with state := .halted })).link .s2).resetCount = some 2 ∧
    ((after (.resetLink 2) (linked .s2 fun l => { l with state := .resetting, resetCount := some 1 })).link .s2).resetCount = some 2 ∧
    answer (.resetLink 2) .reset = some (.wrongState, []) := by decide +kernel

/-- RESET_LINK in UP leaves the interval record, whose presented number the link's summary hands over as it stands (R90, R151, R152). -/
theorem test_reset_link_keeps_the_interval_record :
    ((after (.resetLink 0) (linked .s0 fun l => { l with state := .up, interval := ⟨true, true, false, some 2⟩ })).link .s0).summary =
      ⟨false, some 2⟩ := by decide +kernel

/-- QUERY_SCREEN after release: 1920 by 720, depth 10, black at gain 1024, DOWN, every count 0 (R166); a rear screen has one item more. -/
theorem test_query_screen :
    answer (.queryScreen 0) .reset = some (.ok, [128, 7, 208, 2, 10, 0, 0, 0, 0, 0, 0, 0, 0, 4] ++ List.replicate 28 0) ∧
    answer (.queryScreen 2) .reset = some (.ok, [128, 7, 208, 2, 10, 0, 0, 0, 0, 0, 0, 0, 0, 4] ++ List.replicate 29 0) := by
  decide +kernel

/-- The lock delay of R99: one less than P less tolerance passes, and that value itself does not; FREE with lock fields is refused. -/
theorem test_set_domain :
    ((after (.setDomain 1 1 16667 (.present 3 16166)) .reset).domain .rear).pendingSettings = some ⟨.lock .d 16166, 16667⟩ ∧
    answer (.setDomain 1 1 16667 (.present 3 16167)) .reset = some (.badField, []) ∧
    answer (.setDomain 1 0 16667 (.present 3 0)) .reset = some (.badField, []) ∧
    answer (.setDomain 1 0 8332 .absent) .reset = some (.badField, []) := by decide +kernel

/-- QUERY_DOMAIN after release (R89, R105). -/
theorem test_query_domain :
    answer (.queryDomain 0) .reset = some (.ok,
      [0, 27, 65, 0] ++ [0, 0, 0] ++ [27, 65] ++ [27, 65, 0, 0] ++ [0, 0] ++ [0, 0, 0, 0] ++ [0, 0, 0, 0] ++ [0, 0, 0, 0]) := by decide +kernel

/-- The notice set of the round of Chapter 10 before its first take: record 8 shows ALTERNATE, B is ACQUIRING. -/
def noticed : State :=
  let s := (put .reset 8 { live .s1 (solid 0 ⟨0, 0, 9, 9⟩) 0 with cls := .safety, view := some .alternate }).modInput .b
    fun c => { c with monitor := .acquiring }
  { s with notices := { s.notices with entries := [⟨.safetyView 8, 1⟩, ⟨.sourceState .b, 2⟩, ⟨.view 12, 1⟩, ⟨.applied .s2, 1⟩] } }

/-- The first two takes of that round. -/
theorem test_take_notice :
    answer .takeNotice noticed = some (.ok, [1, 1, 8, 1, 1, 3, 3]) ∧
    answer .takeNotice (after .takeNotice noticed) = some (.ok, [3, 1, 1, 2, 1, 1, 2]) ∧
    answer .takeNotice .reset = some (.ok, [0, 0, 0, 0, 0]) := by decide +kernel

/-- The MASK_NOTICES of that round: the APPLIED entry goes, and the other eight kinds are unmasked; a kind named twice is refused. -/
theorem test_mask_notices :
    answer (.maskNotices (some [(7, 0)])) noticed = some (.ok, [1, 1, 1, 1, 1, 1, 0, 1, 1]) ∧
    (after (.maskNotices (some [(7, 0)])) noticed).notices.entries = [⟨.safetyView 8, 1⟩, ⟨.sourceState .b, 2⟩, ⟨.view 12, 1⟩] ∧
    answer (.maskNotices (some [(7, 0), (7, 1)])) noticed = some (.badField, []) := by decide +kernel

/-- Step 5 of the transactions of Chapter 9: body short, code of AMEND. -/
theorem test_command_frame_rejected :
    answer (.commandFrameRejected .bodyShort (some 2)) .reset = some (.badCommand, [3, 1, 2]) := by decide +kernel

/-- Steps 1, 3 and 4 of those transactions: NOTHING, a fetch cut short, and a whole one. -/
theorem test_fetch :
    (after (.fetchTransaction 2) .reset).port.miso = [1, 0] ∧
    (after (.fetchTransaction 2) opened).port.buffer = some ⟨.ok, [0, 1]⟩ ∧
    (after (.fetchTransaction 5) opened).port.miso = [0, 2, 0, 1, 0] ∧ (after (.fetchTransaction 4) opened).port.buffer = none := by
  decide +kernel

/-- MISO through step 4 of those transactions: high impedance with CS high and with RESETn low, the filler until the first byte is in, then
the response frame and the filler again (R167, R171, R184). -/
theorem test_miso :
    opened.misoByte = none ∧ { opened.csFall with resetLow := true }.misoByte = none ∧ opened.csFall.misoByte = some 0 ∧
    (opened.csFall.clockByte 7).misoByte = some 0 ∧ (opened.csFall.clockByte 240).misoByte = some 0 ∧
    ((opened.csFall.clockByte 240).clockByte 0).misoByte = some 2 ∧
    ((((opened.csFall.clockByte 240).clockByte 0).clockByte 0).clockByte 0).misoByte = some 1 := by decide +kernel

/-! ### Packets and the timer -/

/-- The first row of the stall example of Chapter 3: NOT CHECKED, ACQUIRING, frame 1, first expiry 25,000 µs later. -/
theorem test_first_frame_start :
    ((after (.frameStart .b 7) { State.reset with timeBase := 1000000 }).input .b).monitor = .acquiring ∧
    ((after (.frameStart .b 7) { State.reset with timeBase := 1000000 }).input .b).frameNumber = 1 ∧
    ((after (.frameStart .b 7) { State.reset with timeBase := 1000000 }).input .b).timer = some 1025000 ∧
    ((after (.frameStart .b 7) { State.reset with timeBase := 1000000 }).input .b).openFrame = some ⟨some .k0, [], false, .notChecked⟩ := by
  decide +kernel

/-- The re-lock of the domain example of Chapter 5: D's FRAME_START at 2,113,334 is the first reported while D is LOCKED. -/
def relocking : State :=
  (({ State.reset with timeBase := 2113334 }).modInput .d fun c =>
    { c with monitor := .locked, previousStart := some 2096667, frameNumber := 65535 }).modDomain .rear fun c =>
    { c with settings := ⟨.lock .d 2000, 16667⟩, mode := .holdover, heldPeriod := some 16650, nextStart := 2120101 }

theorem test_frame_start_relocks_the_domain :
    ((after (.frameStart .d 0) relocking).domain .rear).mode = .locked ∧
    ((after (.frameStart .d 0) relocking).domain .rear).heldPeriod = some 16667 ∧
    ((after (.frameStart .d 0) relocking).domain .rear).nextStart = 2115334 ∧
    ((after (.frameStart .d 0) relocking).input .d).frameNumber = 1 ∧
    (after (.frameStart .d 0) relocking).notices.entries = [⟨.domainMode .rear, 1⟩] := by decide +kernel

/-- A source of 16 by 16 pixels with a frame open in slot 0, line 3 received. -/
def receiving : State :=
  State.reset.modInput .a fun c =>
    { c with
        config := { c.config with width := 16, height := 16 }, monitor := .locked, frameNumber := 1
        openFrame := some ⟨some .k0, [3], false, .met⟩
        slots := { c.slots with k0 := ⟨.filling, false, 0, 1, some (16, 16), [(3, List.replicate 16 ⟨0, 0, 0⟩)]⟩ } }

/-- A stored line at depth 8: 200 is stored as 803, 64 as 257 and 255 as 1023 (tables of R111 and R124). -/
theorem test_line_is_expanded :
    ((after (.line .a 0 (.whole (List.replicate 16 ⟨200, 64, 255⟩))) receiving).slot ⟨.a, .k0⟩).read 15 0 = some ⟨803, 257, 1023⟩ ∧
    ((after (.line .a 0 (.whole (List.replicate 16 ⟨200, 64, 255⟩))) receiving).slot ⟨.a, .k0⟩).read 16 0 = none ∧
    ((after (.line .a 0 (.whole (List.replicate 16 ⟨200, 64, 255⟩))) receiving).slot ⟨.a, .k0⟩).read 0 1 = none := by decide +kernel

/-- A line already received is discarded with damage, and its stored copy stays (R56). -/
theorem test_line_received_twice :
    ((after (.line .a 3 (.whole (List.replicate 16 ⟨200, 64, 255⟩))) receiving).input .a).openFrame =
      some ⟨some .k0, [3], true, .met⟩ ∧
    (after (.line .a 3 (.whole (List.replicate 16 ⟨200, 64, 255⟩))) receiving).slot ⟨.a, .k0⟩ = receiving.slot ⟨.a, .k0⟩ := by decide +kernel

/-- Step 6 of the example of Chapter 4: A2 becomes READY and latest, and A4 stays READY with its 2 holders. -/
theorem test_frame_end_publishes :
    ((after (.frameEnd .a) (State.reset.modInput .a fun c =>
      { c with openFrame := some ⟨some .k2, [], false, .met⟩,
               slots := { c.slots with k2 := ⟨.filling, false, 0, 21, some (1920, 720), []⟩, k4 := ready true 2 19 [] } })).input .a).slots =
      ⟨.empty, .empty, ⟨.ready, true, 0, 21, some (1920, 720), []⟩, .empty, ready false 2 19 []⟩ := by decide +kernel

/-- A frame of which a line never arrived is bad (R57), and a frame of all its lines good. -/
theorem test_frame_end_judges :
    ((after (.frameEnd .a) receiving).input .a).badRun = 1 ∧ ((after (.frameEnd .a) receiving).input .a).badFrames = 1 ∧
    frameIsGood 3 ⟨none, [0, 1, 2], false, .notChecked⟩ = true ∧ frameIsGood 3 ⟨none, [0, 1, 2], true, .met⟩ = false := by decide +kernel

theorem test_discarded_packet : after (.discardedPacket .a) receiving = receiving := by decide +kernel

/-- The expiry at 1,108,367 of the stall example: LOST, bad frames 3, the next expiry at 1,125,034. -/
theorem test_missing_frame_expiry :
    ((after (.missingFrameExpiry .b) (({ State.reset with timeBase := 1108367 }).modInput .b fun c =>
      { c with monitor := .locked, badRun := 1, badFrames := 2, frameNumber := 5, timer := some 1108367 })).input .b) =
      { InputContext.reset with monitor := .lost, badFrames := 3, frameNumber := 5, timer := some 1125034 } := by decide +kernel

/-! ### Frame starts -/

/-- Frame 44 of the domain example of Chapter 5, in HOLDOVER at 2,070,151: the next frame start is 2,086,801. -/
theorem test_domain_frame_start_in_holdover :
    ((after (.domainFrameStart .rear) (({ State.reset with timeBase := 2070151 }).modDomain .rear fun c =>
      { c with settings := ⟨.lock .d 2000, 16667⟩, mode := .holdover, heldPeriod := some 16650, nextStart := 2070151,
               frameNumber := 43 })).domain .rear).nextStart = 2086801 ∧
    ((after (.domainFrameStart .front) { State.reset with timeBase := 16667 }).domain .front).frameNumber = 1 ∧
    after (.domainFrameStart .front) .reset = .reset := by decide +kernel

/-- Intervals 4, 6 and 9 of the sync example of Chapter 5. -/
theorem test_sync_judgement :
    nextSync .synced 0 ⟨true, some 103⟩ ⟨true, some 102⟩ = (.syncLost, 0) ∧
    nextSync .syncLost 1 ⟨true, none⟩ ⟨true, some 105⟩ = (.syncLost, 0) ∧
    nextSync .syncLost 2 ⟨true, some 108⟩ ⟨true, some 108⟩ = (.synced, 0) ∧
    nextSync .synced 0 ⟨true, some 109⟩ ⟨false, none⟩ = (.unsynced, 0) := by decide +kernel

/-- E36 of the unplugged screen of section 11.3: the 32nd frame start without UP halts the link. -/
theorem test_training_window_expiry :
    ((after (.trainingWindowExpiry .s3) (linked .s3 fun l => { l with state := .recovering, windowCount := 31 })).link .s3).state = .halted ∧
    after (.trainingWindowExpiry .s3) (linked .s3 fun l => { l with state := .recovering, windowCount := 30 }) =
      linked .s3 fun l => { l with state := .recovering, windowCount := 30 } := by decide +kernel

/-- E10 of the example of Chapter 8: the reset ends, and the link sends a TRAINING frame. -/
theorem test_link_reset_end :
    ((after (.linkResetEnd .s2) (linked .s2 fun l => { l with state := .resetting, resetCount := some 1 })).link .s2).state = .training ∧
    ((after (.linkResetEnd .s2) (linked .s2 fun l => { l with state := .resetting, resetCount := some 1 })).link .s2).sent =
      [.trainingFrame 1 1920 720 10] := by decide +kernel

/-- Interval 4 of that example: the third interval over the threshold sends the link to RECOVERING. -/
theorem test_errors_send_a_link_to_recovering :
    (LinkContext.frameStart 5 { LinkContext.reset with
      state := .up, errorRun := 2, config := ⟨1920, 720, 10, 10⟩, interval := ⟨true, true, true, none⟩ }).state = .recovering ∧
    (LinkContext.frameStart 5 { LinkContext.reset with
      state := .up, errorRun := 1, config := ⟨1920, 720, 10, 10⟩, interval := ⟨true, true, true, none⟩ }).errorRun = 2 := by decide +kernel

/-- F4 and F6 of the stall example of Chapter 7 for SAFETY handle 8: ALTERNATE while D is fit, then FILLED. -/
theorem test_safety_alternate :
    let m : Image := { solid 0 ⟨0, 0, 16, 16⟩ with source := .input .c, sourceRect := some ⟨0, 0, 16, 16⟩, policy := .alternate
                                                   alternate := some .d, holdLimit := 2 }
    let p : Placement := { live .s0 m 0 with cls := .safety, latched := some ⟨.c, .k3⟩, age := 1, lastFrame := 41 }
    viewDecision p m (fun i => if i = .c then ⟨true, some (⟨.c, .k3⟩, 41)⟩ else ⟨true, some (⟨.d, .k1⟩, 213)⟩) =
      ⟨.alternate, some ⟨.d, .k1⟩, 2, 41⟩ ∧
    viewDecision { p with latched := some ⟨.d, .k2⟩, age := 3 } m
      (fun i => if i = .c then ⟨false, some (⟨.c, .k3⟩, 41)⟩ else ⟨false, some (⟨.d, .k2⟩, 214)⟩) = ⟨.filled, none, 4, 41⟩ := by decide +kernel

/-- The passenger's choice that follows an AMEND (section 2.5): committed source C, staged source B kept, generation 7. -/
theorem test_choice_after_amend :
    let m : Image := { image selectable with choices := some [.a, .c, .b] }
    let p : Placement := { live .s2 m 0 with selectable := true, staged := { m with source := .input .b, choices := some [.a, .b] } }
    let s := ((State.reset.setRecord 0 ⟨6, some p⟩).modLink .s2 fun l => { l with pendingChoice := some 1 }).takeChoice .s2
    (s.record 0).generation = 7 ∧ (s.placement 0).map (fun p => (p.committed.map Image.source, p.staged.source)) =
      some (some (.input .c), .input .b) ∧ s.notices.entries = [⟨.passengerChoice .s2, 1⟩] := by decide +kernel

/-! ### Composition (Chapter 6) -/

/-- The worked case: the position in D, its green interpolation, blend, gain and output. -/
theorem test_worked_pixel_stages :
    samplePosition 50 1280 800 = 5262540 ∧ sampleIndex 5262540 = 80 ∧ sampleWeight 5262540 = 76 ∧ mix 400 500 76 = 430 ∧
    mix 600 700 76 = 630 ∧ mix 430 630 76 = 489 ∧ blendChannel .over 192 489 200 = 417 ∧ gainChannel 768 417 = 313 ∧
    depthChannel 8 313 = 78 := by decide +kernel

/-- The enlargement at the left edge, the reduction by four, and the saturations of the variations. -/
theorem test_variations_at_the_limits :
    samplePosition 0 200 1600 = -28672 ∧ sampleIndex (-28672) = -1 ∧ sampleWeight (-28672) = 144 ∧ clampIndex (-1) 200 = 0 ∧
    samplePosition 1599 200 1600 = 13070336 ∧ clampIndex 200 200 = 199 ∧ samplePosition 479 1920 480 = 125665280 ∧
    sampleWeight 125665280 = 128 ∧ blendChannel .add 128 600 900 = 1023 ∧ blendChannel .add 128 600 500 = 800 ∧
    gainChannel 1100 1000 = 1023 ∧ depthChannel 8 1023 = 255 ∧ gainChannel 1536 1 = 2 := by decide +kernel

/-- Rows of the table of keys against a void sample: LE PACKED, LE SINGLE, NEQ PACKED and ORD SINGLE with key colour 8, 8, 8. -/
theorem test_keys :
    [some (⟨0, 4, 8⟩ : Colour), some ⟨0, 12, 8⟩, none].map (Key.keysOut ⟨.le, .packed, ⟨8, 8, 8⟩⟩) = [true, false, false] ∧
    [some (⟨0, 4, 8⟩ : Colour), some ⟨0, 12, 8⟩, none].map (Key.keysOut ⟨.le, .single, ⟨8, 8, 8⟩⟩) = [true, false, false] ∧
    [some (⟨0, 4, 8⟩ : Colour), some ⟨0, 12, 8⟩, none].map (Key.keysOut ⟨.neq, .packed, ⟨8, 8, 8⟩⟩) = [false, false, true] ∧
    [some (⟨0, 4, 8⟩ : Colour), some ⟨0, 12, 8⟩, none].map (Key.keysOut ⟨.ord, .single, ⟨8, 8, 8⟩⟩) = [true, true, false] := by decide +kernel

/-- The worked pixel whole: handle 3 shows B opaque at 1:1, handle 7 shows D reduced, at screen column 1250, line 150 of S1. -/
theorem test_worked_pixel :
    let row (g : Nat) (n : Nat) : List Colour := List.replicate n ⟨0, g, 1023⟩
    let drow (p q : Nat) : List Colour := List.replicate 80 ⟨0, 0, 0⟩ ++ [⟨100, p, 1023⟩, ⟨100, q, 1023⟩]
    let s := (State.reset.modSlot ⟨.b, .k0⟩ fun _ => ⟨.ready, true, 1, 1, some (1920, 720), [(150, row 200 1252), (151, row 200 1252)]⟩).modSlot
      ⟨.d, .k0⟩ fun _ => ⟨.ready, true, 1, 1, some (1280, 960), [(80, drow 400 500), (81, drow 600 700)]⟩
    outputColour 768 8 (composedPixel s ⟨0, 0, 0⟩
      [⟨3, ⟨0, 0, 1920, 720⟩, .slot ⟨.b, .k0⟩ 0 0 1920 720, none, 256, .over, ⟨0, 0, 0⟩⟩,
       ⟨7, ⟨1200, 100, 800, 600⟩, .slot ⟨.d, .k0⟩ 0 0 1280 960, none, 192, .over, ⟨0, 0, 0⟩⟩] 1250 150) = ⟨14, 78, 192⟩ := by decide +kernel

/-- A composition of 2 by 2 pixels with its last line due, on a link that is UP. -/
def handing : State :=
  (linked .s0 fun l => { l with state := .up, transmission := some ⟨4, 1⟩ }).modComposer .s0 fun k =>
    { k with background := ⟨1, 2, 3⟩, composition := some ⟨4, 2, 2, 10, [], 1⟩ }

/-- The last line goes out with a FRAME_TAIL that carries the count of LINE units, and the composition ends (R109, R145). -/
theorem test_line_handover :
    ((after (.lineHandover .s0) handing).link .s0).sent = [.line 1 [⟨1, 2, 3⟩, ⟨1, 2, 3⟩], .frameTail 2] ∧
    ((after (.lineHandover .s0) handing).composer .s0).composition = none := by decide +kernel

/-- The FAULT of interval 7 of the example of Chapter 8 halts a RECOVERING link on arrival, its runs kept; interval 2's 14 errors go over
the threshold of 10. -/
theorem test_status_return :
    ((after (.statusReturn .s2 true [0, 0, 1, 1, 0, 255]) (linked .s2 fun l => { l with state := .recovering, windowCount := 2 })).link
      .s2).state = .halted ∧
    ((after (.statusReturn .s2 true [5, 1, 1, 0, 14, 1]) (linked .s2 fun l =>
      { l with state := .up, config := ⟨1920, 720, 10, 10⟩ })).link .s2).interval = ⟨true, true, true, some 261⟩ ∧
    ((after (.statusReturn .s2 true [5, 1, 1, 0, 14, 1]) (linked .s2 fun l => { l with state := .up })).link .s2).pendingChoice = some 1 ∧
    after (.statusReturn .s2 true [5, 1, 1, 0, 14, 8]) (linked .s2 fun l => { l with state := .up }) =
      linked .s2 fun l => { l with state := .up } := by decide +kernel

/-! ### The reset input -/

/-- RESETn falls on an open frame: it is neither judged nor published, and its slot is free (R184). -/
theorem test_resetn_assert :
    ((after .resetnAssert receiving).input .a).openFrame = none ∧ ((after .resetnAssert receiving).input .a).badFrames = 0 ∧
    (after .resetnAssert receiving).slot ⟨.a, .k0⟩ = .empty ∧ (after .resetnAssert noticed).attn = false ∧
    after (.lookup 0) (after .resetnAssert opened) = after .resetnAssert opened := by decide +kernel

theorem test_resetn_release :
    after .resetnRelease (after .resetnAssert noticed) = .reset ∧ (State.reset).attn = false := by decide +kernel

/-! ### Witnesses: a state and operands that meet the hypotheses of each statement -/

/-- Every command answers a next state. -/
theorem exec_after (c : Instr) (s : State) : exec c s = .next (after c s) := by
  by_cases h : c = .resetnRelease
  · subst h; rfl
  · obtain ⟨f, hf⟩ := exec_whileRunning c s h
    simp [after, hf, whileRunning_eq]

/-- The image of a selectable record on S2, source A, choices A and B, into 64 by 64. -/
def chosen : Image :=
  { solid 1 ⟨0, 0, 64, 64⟩ with source := .input .a, choices := some [.a, .b] }

/-- A piece of A into 64 by 64, alternate B. -/
def piece : Image :=
  { solid 0 ⟨0, 0, 64, 64⟩ with source := .input .a, sourceRect := some ⟨0, 0, 16, 16⟩, policy := .alternate, alternate := some .b }

/-- A part at work: handle 0 is a LIVE record of S0 that shows A and is armed, handle 1 a LIVE SAFETY record above it, handle 4 a LIVE
selectable record of S2 that shows A, handle 2 a NEW one. A and B are LOCKED, A with a frame open; FRONT is LOCKED to A; S0 is UP with a
frame in transmission and in composition, S1 TRAINING at its window's last frame start, S2 UP with a choice pending and S3 RESETTING. -/
def busy : State :=
  let row : List Colour := List.replicate 16 ⟨100, 200, 300⟩
  let s := { State.reset with timeBase := 5000 }
  let s := s.setRecord 0 ⟨9, some { live .s0 piece 0 with
    staged := { piece with opacity := 200 }, armed := true, latched := some ⟨.a, .k0⟩, lastFrame := 5 }⟩
  let s := s.setRecord 1 ⟨255, some { live .s0 { solid 7 ⟨200, 0, 20, 20⟩ with holdLimit := 2 } 1 with cls := .safety }⟩
  let s := s.setRecord 2 ⟨1, some (.opened .s2 .ordinary true chosen)⟩
  let s := s.setRecord 4 ⟨3, some { live .s2 chosen 0 with selectable := true, latched := some ⟨.a, .k0⟩, lastFrame := 5 }⟩
  let small : SourceConfig := { SourceConfig.reset with width := 16, height := 16 }
  let s := s.modInput .a fun c =>
    { c with
        config := small, monitor := .locked, openFrame := some ⟨some .k1, [0, 3], false, .met⟩, previousStart := some 1000
        frameNumber := 6, timestamp := 1000, measuredPeriod := some 16667, senderTag := 7, timer := some 26000
        slots := { c.slots with
          k0 := ready true 2 5 [(0, row), (1, row)], k1 := ⟨.filling, false, 0, 6, some (16, 16), [(0, row), (3, row)]⟩ } }
  let s := s.modInput .b fun c =>
    { c with config := small, monitor := .locked, previousStart := some 900, frameNumber := 9, timestamp := 900, timer := some 25900
             badRun := 1, slots := { c.slots with k0 := ready true 0 9 [(15, row)] } }
  let s := s.modDomain .front fun c =>
    { c with settings := ⟨.lock .a 2000, 16667⟩, mode := .locked, heldPeriod := some 16667, nextStart := 5000, frameNumber := 3
             sync := .syncLost, agreeingRun := 2, pendingSettings := some ⟨.lock .b 16166, 20000⟩ }
  let s := s.modComposer .s0 fun k =>
    { k with composition := some ⟨3, 320, 240, 8, [⟨0, ⟨0, 0, 64, 64⟩, .slot ⟨.a, .k0⟩ 0 0 16 16, none, 256, .over, ⟨0, 0, 0⟩⟩], 0⟩ }
  let s := s.modLink .s0 fun l =>
    { l with config := ⟨320, 240, 8, 10⟩, state := .up, missingRun := 3, errorRun := 2, transmission := some ⟨3, 1⟩
             interval := ⟨true, true, true, some 2⟩ }
  let s := s.modLink .s1 fun l => { l with state := .training, windowCount := 31, trainedRun := 1 }
  let s := s.modLink .s2 fun l => { l with state := .up, pendingChoice := some 1 }
  let s := s.modLink .s3 fun l => { l with state := .resetting, resetCount := some 1 }
  { s with notices := { s.notices with entries := [⟨.view 0, 255⟩, ⟨.drop .a, 3⟩] } }

/-- The part at work obeys every law of the device. -/
theorem busy_table_safe : TableSafe busy := by decide +kernel

theorem busy_store_safe : StoreSafe busy := by decide +kernel

theorem busy_blocks_safe : BlocksSafe busy := by decide +kernel

/-- The part at work with one command waiting. -/
def waiting (c : Instr) : State := { busy with pending := [c] }

/-- With any command waiting the part at work meets every law, and its step answers a next state. -/
theorem waiting_safe (c : Instr) : Safe (waiting c) ∧ step (waiting c) = .next (after c busy) :=
  ⟨⟨busy_table_safe, busy_store_safe, busy_blocks_safe⟩, exec_after c busy⟩

theorem witness_StepKeepsTheNoticeSet :
    NoticeLaw (waiting (.frameStart .a 0)) ∧ step (waiting (.frameStart .a 0)) = .next (after (.frameStart .a 0) busy) :=
  ⟨(waiting_safe _).1.2.2.2.2.2.2.2, (waiting_safe _).2⟩

theorem witness_StepKeepsTheTable :
    (ImageLaw (waiting (.domainFrameStart .front)) ∧ NewLaw (waiting (.domainFrameStart .front)) ∧
      SafetyViewLaw (waiting (.domainFrameStart .front)) ∧ ScreenLimit (waiting (.domainFrameStart .front)) ∧
      JoinLaw (waiting (.domainFrameStart .front))) ∧
    step (waiting (.domainFrameStart .front)) = .next (after (.domainFrameStart .front) busy) :=
  ⟨⟨(waiting_safe _).1.1.1, (waiting_safe _).1.1.2.1, (waiting_safe _).1.1.2.2.1, (waiting_safe _).1.1.2.2.2.1,
    (waiting_safe _).1.1.2.2.2.2.1⟩, (waiting_safe _).2⟩

theorem witness_StepKeepsLineCoverage :
    ImageLaw (waiting (.commit (some [0]))) ∧ CoverageLaw (waiting (.commit (some [0]))) ∧ SelectLaw (waiting (.commit (some [0]))) ∧
    step (waiting (.commit (some [0]))) = .next (after (.commit (some [0])) busy) :=
  ⟨(waiting_safe _).1.1.1, (waiting_safe _).1.1.2.2.2.2.2.1, (waiting_safe _).1.1.2.2.2.2.2.2.2, (waiting_safe _).2⟩

theorem witness_StepKeepsSafetyUncovered :
    ImageLaw (waiting (.domainFrameStart .front)) ∧ JoinLaw (waiting (.domainFrameStart .front)) ∧
    OcclusionLaw (waiting (.domainFrameStart .front)) ∧
    step (waiting (.domainFrameStart .front)) = .next (after (.domainFrameStart .front) busy) :=
  ⟨(waiting_safe _).1.1.1, (waiting_safe _).1.1.2.2.2.2.1, (waiting_safe _).1.1.2.2.2.2.2.2.1, (waiting_safe _).2⟩

theorem witness_StepKeepsThePictureStore :
    HolderLaw (waiting (.resetSource 0)) ∧ SlotLaw (waiting (.resetSource 0)) ∧ NewLaw (waiting (.resetSource 0)) ∧
    LineLaw (waiting (.resetSource 0)) ∧ step (waiting (.resetSource 0)) = .next (after (.resetSource 0) busy) :=
  ⟨(waiting_safe _).1.2.1.1, (waiting_safe _).1.2.1.2.1, (waiting_safe _).1.1.2.1, (waiting_safe _).1.2.1.2.2.1, (waiting_safe _).2⟩

theorem witness_StepKeepsViewsFresh :
    FrozenSlotLaw (waiting (.domainFrameStart .front)) ∧ ViewLaw (waiting (.domainFrameStart .front)) ∧
    FreshLaw (waiting (.domainFrameStart .front)) ∧
    step (waiting (.domainFrameStart .front)) = .next (after (.domainFrameStart .front) busy) :=
  ⟨(waiting_safe _).1.2.1.2.2.2.1, (waiting_safe _).1.2.1.2.2.2.2.1, (waiting_safe _).1.2.1.2.2.2.2.2.1, (waiting_safe _).2⟩

theorem witness_StepKeepsInputsDomainsAndLinks :
    BlocksSafe (waiting (.frameEnd .a)) ∧ step (waiting (.frameEnd .a)) = .next (after (.frameEnd .a) busy) :=
  ⟨(waiting_safe _).1.2.2, (waiting_safe _).2⟩

/-- Those steps change what the laws speak of: the frame start applies handle 0 and gives handle 4's slot no holder less. -/
theorem test_the_part_at_work_moves :
    (after (.domainFrameStart .front) busy).liveList .s0 = [0, 1] ∧
    ((after (.domainFrameStart .front) busy).placement 0).map (fun p => (p.armed, p.view)) = some (false, some .showing) ∧
    (after (.frameEnd .a) busy).slot ⟨.a, .k0⟩ = { busy.slot ⟨.a, .k0⟩ with latest := false } ∧
    answer (.commit (some [0])) busy = some (.ok, [1, 1]) ∧ ((after (.resetSource 0) busy).input .a).openFrame = none := by decide +kernel

/-- IdleStepLetsTimePass: RESETn low; nothing due; an expiry due; a frame start due. -/
theorem witness_IdleStepLetsTimePass :
    ({ State.reset with resetLow := true }).pending = [] ∧
    (State.reset.pending = [] ∧ State.reset.resetLow = false ∧ (∀ i ∈ allInputs, (State.reset.input i).timer ≠ some State.reset.timeBase) ∧
      ∀ d ∈ allDomains, (State.reset.domain d).nextStart ≠ State.reset.timeBase) ∧
    (let s := { busy with timeBase := 26000 }; s.pending = [] ∧ s.resetLow = false ∧ (s.input .a).timer = some s.timeBase) ∧
    (busy.pending = [] ∧ busy.resetLow = false ∧ (busy.domain .front).nextStart = busy.timeBase) := by decide +kernel

/-- CommandsMoveNoTimeAndNoneStops: a command other than the release, while RESETn is held low. -/
theorem witness_CommandsMoveNoTimeAndNoneStops :
    (Instr.frameEnd .a) ≠ .resetnRelease ∧ ({ busy with resetLow := true }).resetLow = true ∧
    after (.frameEnd .a) { busy with resetLow := true } = { busy with resetLow := true } := by decide +kernel

/-- ResetPinEndsAndRestarts: RESETn falls on a part at work. -/
theorem witness_ResetPinEndsAndRestarts :
    busy.resetLow = false ∧ busy.attn = true ∧ (after .resetnAssert busy).attn = false ∧
    ((after .resetnAssert busy).placement 0).map Placement.armed = some false := by decide +kernel

/-- RefusedCommandChangesOnlyTheResponse: a command taken, and one refused. -/
theorem witness_RefusedCommandChangesOnlyTheResponse :
    isCommand (.freeze 0) = true ∧ isCommand (.freeze 1) = true ∧ busy.resetLow = false ∧
    exec (.freeze 0) busy = .next (after (.freeze 0) busy) ∧ answer (.freeze 0) busy = some (.ok, [1, 0]) ∧
    exec (.freeze 1) busy = .next (after (.freeze 1) busy) ∧ answer (.freeze 1) busy = some (.safetyRule, []) :=
  ⟨by decide, by decide, by decide +kernel, exec_after _ _, by decide +kernel, exec_after _ _, by decide +kernel⟩

/-- QueriesReportAndChangeNothing: the last handle, screen, input and domain that a byte names. -/
theorem witness_QueriesReportAndChangeNothing :
    busy.resetLow = false ∧ handleOf 63 = some 63 ∧ handleOf 64 = none ∧ screenOf 3 = some .s3 ∧ inputOf 3 = some .d ∧
    domainOf 1 = some .rear := by decide +kernel

/-- A table whose first `n` records are NEW, sixteen at most on any one screen in turn. -/
def filled (n : Nat) : State :=
  { State.reset with
      table := Vector.ofFn fun h : Fin 64 =>
        if h.val < n then
          ⟨1, some (.opened (match h.val % 4 with | 0 => .s0 | 1 => .s1 | 2 => .s2 | _ => .s3) .ordinary false (solid 0 ⟨0, 0, 9, 9⟩))⟩
        else .reset }

/-- OpenTakesTheLowestFreeRecord: the first record after release, and the last record of the table as the sixteenth of its screen. -/
theorem witness_OpenTakesTheLowestFreeRecord :
    (State.reset.resetLow = false ∧ screenOf 0 = some .s0 ∧ classOf 0 = some .ordinary ∧ yesNoOf 0 = some false ∧
      imageOf (rawImage none) = some (image (rawImage none)) ∧
      State.reset.checkImage .s0 .ordinary false (image (rawImage none)) = none ∧ State.reset.placement 0 = none ∧
      (∀ k, k < (0 : Handle) → State.reset.placement k ≠ none) ∧ State.reset.placementCount .s0 < 16) ∧
    ((filled 63).resetLow = false ∧ screenOf 3 = some .s3 ∧
      (filled 63).checkImage .s3 .ordinary false (image (rawImage none)) = none ∧ (filled 63).placement 63 = none ∧
      (∀ k, k < (63 : Handle) → (filled 63).placement k ≠ none) ∧ (filled 63).placementCount .s3 = 15) := by decide +kernel

/-- OpenRefusesInOrder: each byte and the image unreadable; an image that fails; a full table; a screen with sixteen records. -/
theorem witness_OpenRefusesInOrder :
    screenOf 4 = none ∧ classOf 2 = none ∧ yesNoOf 2 = none ∧ (none : Option RawImage).bind imageOf = none ∧
    imageOf { rawImage none with blend := 2 } = none ∧
    State.reset.checkImage .s0 .safety false (image (rawImage none)) = some .safetyRule ∧
    ((∀ h, (filled 64).placement h ≠ none) ∧ (filled 64).checkImage .s0 .ordinary false (image (rawImage none)) = none) ∧
    ((filled 61).placement 61 = none ∧ (filled 61).placementCount .s0 = 16 ∧
      (filled 61).checkImage .s0 .ordinary false (image (rawImage none)) = none) := by decide +kernel

/-- PassedImagesKeepThePromises: images that pass at the bounds: a SAFETY one with hold limit 15, a selectable one with one choice, one with
an alternate, and a source rectangle enlarged by eight. -/
theorem witness_PassedImagesKeepThePromises :
    (∃ m, imageOf { rawImage none with holdLimit := 15, opacity := 300 } = some m ∧ State.reset.checkImage .s1 .safety false m = none) ∧
    (∃ m, imageOf { rawImage (some [0]) with sourceRect := none } = some m ∧ State.reset.checkImage .s3 .ordinary true m = none) ∧
    (∃ m, imageOf { rawImage none with policy := 2, alternate := some 3 } = some m ∧
      State.reset.checkImage .s0 .ordinary false m = none ∧ m.alternate = some .d) ∧
    (∃ m, imageOf { rawImage none with sourceRect := some ⟨1680, 630, 240, 90⟩, layer := 7 } = some m ∧
      State.reset.checkImage .s2 .ordinary false m = none) :=
  ⟨⟨_, rfl, by decide +kernel⟩, ⟨_, rfl, by decide +kernel⟩, ⟨_, rfl, by decide +kernel, rfl⟩, ⟨_, rfl, by decide +kernel⟩⟩

/-- AmendAndRetireRefuseInOrder: the bytes, a FREE record, an armed one, a stale generation, a retirement staged, a fixed field, and an image
that fails. -/
theorem witness_AmendAndRetireRefuseInOrder :
    busy.resetLow = false ∧ handleOf 64 = none ∧ yesNoOf 2 = none ∧ yesNoOf 1 = some true ∧ handleOf 63 = some 63 ∧ busy.placement 63 = none ∧
    (∃ p, busy.placement 0 = some p ∧ p.armed = true) ∧
    (∃ p, busy.placement 4 = some p ∧ p.armed = false ∧ p.retireStaged = false ∧ (4 : BitVec 8) ≠ (busy.record 4).generation ∧
      (3 : BitVec 8) = (busy.record 4).generation ∧ RawField.number (.fixedClass 0) = 14 ∧
      busy.amendedImage p [.layer 8] = .error .badField ∧ busy.amendedImage p [] = .error .badField) ∧
    (∃ p, (after (.retire 4 3 0) busy).placement 4 = some p ∧ p.armed = false ∧ p.retireStaged = true) :=
  ⟨by decide +kernel, by decide, by decide, by decide, by decide, by decide +kernel, ⟨_, rfl, rfl⟩,
    ⟨_, rfl, rfl, rfl, by decide +kernel, by decide +kernel, rfl, rfl, rfl⟩, ⟨_, rfl, rfl, rfl⟩⟩

/-- AmendStagesTheImage: an AMEND of two fields of a LIVE record with its generation, and one with the unconditional flag. -/
theorem witness_AmendStagesTheImage :
    ∃ p m, busy.resetLow = false ∧ handleOf 4 = some 4 ∧ yesNoOf 0 = some false ∧ yesNoOf 1 = some true ∧ busy.placement 4 = some p ∧
      p.armed = false ∧ (3 : BitVec 8) = (busy.record 4).generation ∧ p.retireStaged = false ∧
      busy.amendedImage p [.layer 7, .opacity 300] = .ok m :=
  ⟨_, _, by decide +kernel, by decide, by decide, by decide, rfl, rfl, by decide +kernel, rfl, rfl⟩

/-- RetireFreesNewAndStagesLive: the NEW record and the LIVE one. -/
theorem witness_RetireFreesNewAndStagesLive :
    (∃ p, busy.placement 2 = some p ∧ p.armed = false ∧ (1 : BitVec 8) = (busy.record 2).generation ∧ p.retireStaged = false ∧
      p.committed = none ∧ p.latched = none) ∧
    (∃ p, busy.placement 4 = some p ∧ p.armed = false ∧ (3 : BitVec 8) = (busy.record 4).generation ∧ p.retireStaged = false ∧
      p.committed ≠ none) :=
  ⟨⟨_, rfl, rfl, by decide +kernel, rfl, rfl, rfl⟩, ⟨_, rfl, rfl, by decide +kernel, rfl, by decide +kernel⟩⟩

/-- FreezeAndThawSetTheRequest: a FREE record, a SAFETY one, a NEW one and a LIVE one. -/
theorem witness_FreezeAndThawSetTheRequest :
    handleOf 63 = some 63 ∧ busy.placement 63 = none ∧ (∃ p, busy.placement 1 = some p ∧ p.cls = .safety) ∧
    (∃ p, busy.placement 2 = some p ∧ p.cls = .ordinary ∧ p.committed = none) ∧
    (∃ p, busy.placement 0 = some p ∧ p.cls = .ordinary ∧ p.committed ≠ none) :=
  ⟨by decide, by decide +kernel, ⟨_, rfl, rfl⟩, ⟨_, rfl, rfl, rfl⟩, ⟨_, rfl, rfl, by decide +kernel⟩⟩

/-- CommitArmsEveryStagedDifference: two screens named, with differences staged; and all four. -/
theorem witness_CommitArmsEveryStagedDifference :
    busy.resetLow = false ∧ readAll screenOf [2, 0] = some [.s2, .s0] ∧ ([.s2, .s0] : List Screen) ≠ [] ∧ ([.s2, .s0] : List Screen).Nodup ∧
    (∀ sc ∈ ([.s0] : List Screen), busy.admissionFault sc = none) ∧
    (∀ sc ∈ allScreens, State.reset.admissionFault sc = none) ∧ readAll screenOf [0, 1, 2, 3] = some allScreens := by decide +kernel

/-- CommitReportsTheFirstFault: the lists refused, and each of the three faults: the two selectable records of S2 among them. -/
theorem witness_CommitReportsTheFirstFault :
    readAll screenOf [4] = none ∧ readAll screenOf [] = some [] ∧ readAll screenOf [0, 0] = some [.s0, .s0] ∧
    ¬ ([.s0, .s0] : List Screen).Nodup ∧
    (busy.admissionFault .s0 = none ∧ overlapFault 720 ((busy.wouldBe .s2).map fun c => c.image.target) = none ∧
      (busy.link .s2).config.height = 720 ∧ occlusionFault (busy.wouldBe .s2) = none ∧ selectFault .s2 (busy.wouldBe .s2) = some (2, 4)) ∧
    (let s := ordering { Placement.opened .s1 .ordinary false (solid 3 ⟨1200, 100, 600, 200⟩) with cls := .safety };
      overlapFault (s.link .s1).config.height ((s.wouldBe .s1).map fun c => c.image.target) = none ∧
      occlusionFault (s.wouldBe .s1) = some (3, 7)) ∧
    (let s := (List.range 7).foldl (fun s n => put s (Fin.ofNat 64 n) (.opened .s0 .ordinary false (solid 0 ⟨n, 719, 1, 1⟩))) State.reset;
      overlapFault (s.link .s0).config.height ((s.wouldBe .s0).map fun c => c.image.target) = some (719, 7)) := by decide +kernel

/-- AdmissionChecksFindTheFirstFault: rectangles that share one pixel, and ones that only meet along an edge; a pair found past others. -/
theorem witness_AdmissionChecksFindTheFirstFault :
    (⟨0, 0, 600, 9⟩ : Rect).intersects ⟨599, 8, 1, 1⟩ = true ∧ (⟨0, 0, 600, 9⟩ : Rect).intersects ⟨600, 0, 9, 9⟩ = false ∧
    overlapFault 1 (List.replicate 7 ⟨0, 0, 1, 1⟩) = some (0, 7) ∧
    (let p := live .s0 (solid 0 ⟨0, 0, 9, 9⟩) 0;
      let c (h : Handle) (cls : PlacementClass) (t : Rect) : Candidate := ⟨h, { p with cls := cls }, solid 0 t⟩;
      occlusionFault [c 0 .ordinary ⟨0, 0, 9, 9⟩, c 1 .safety ⟨0, 0, 9, 9⟩, c 2 .ordinary ⟨9, 0, 9, 9⟩, c 3 .safety ⟨8, 8, 1, 1⟩] =
        some (1, 3)) := by decide +kernel

/-- RestartingASourceClearsItsContext: RESET_SOURCE of A at work, and a SET_SOURCE at the lower and at the upper bounds of its settings. -/
theorem witness_RestartingASourceClearsItsContext :
    busy.resetLow = false ∧ inputOf 0 = some .a ∧ inputOf 3 = some .d ∧
    (∃ w h d p t n m, (Instr.setSource 3 16 16 8 8333 0 1 1) = .setSource 3 w h d p t n m ∧ 16 ≤ w.toNat ∧ 16 ≤ h.toNat ∧ d.toNat = 8 ∧
      8333 ≤ p.toNat ∧ t.toNat ≤ 2000 ∧ 1 ≤ n.toNat ∧ 1 ≤ m.toNat) ∧
    (∃ w h d p t n m, (Instr.setSource 3 1920 1080 10 40000 2000 8 8) = .setSource 3 w h d p t n m ∧ w.toNat ≤ 1920 ∧ h.toNat ≤ 1080 ∧
      d.toNat = 10 ∧ p.toNat ≤ 40000 ∧ t.toNat ≤ 2000 ∧ n.toNat ≤ 8 ∧ m.toNat ≤ 8) ∧
    (∀ x ∈ allDomains, (busy.domain x).settings.locksTo .d = false ∧ ∀ q ∈ (busy.domain x).pendingSettings, q.locksTo .d = false) ∧
    (∀ x : Handle, ∀ q ∈ busy.placement x, q.names .d = false) ∧
    answer (.setSource 3 1920 1080 10 40000 2000 8 8) busy = some (.ok, []) ∧ answer (.setSource 3 16 16 8 8333 0 1 1) busy = some (.ok, []) :=
  ⟨by decide +kernel, by decide, by decide, ⟨_, _, _, _, _, _, _, rfl, by decide, by decide, by decide, by decide, by decide, by decide,
    by decide⟩, ⟨_, _, _, _, _, _, _, rfl, by decide, by decide, by decide, by decide, by decide, by decide, by decide⟩, by decide +kernel,
    by decide +kernel, by decide +kernel, by decide +kernel⟩

/-- SetSourceRefusesInOrder: no input; each of the seven settings out of range; a lock delay in the way, in effect and pending; and an image. -/
theorem witness_SetSourceRefusesInOrder :
    inputOf 4 = none ∧ firstFalse (SourceConfig.inRange ⟨1921, 1081, 9, 40001, 2001, 9, 0⟩) = some 0 ∧
    firstFalse (SourceConfig.inRange ⟨1920, 15, 10, 40000, 2000, 8, 8⟩) = some 1 ∧
    firstFalse (SourceConfig.inRange ⟨16, 16, 9, 8333, 0, 1, 1⟩) = some 2 ∧
    firstFalse (SourceConfig.inRange ⟨16, 16, 8, 8332, 0, 1, 1⟩) = some 3 ∧
    firstFalse (SourceConfig.inRange ⟨16, 16, 8, 8333, 2001, 1, 1⟩) = some 4 ∧
    firstFalse (SourceConfig.inRange ⟨16, 16, 8, 8333, 0, 0, 1⟩) = some 5 ∧
    firstFalse (SourceConfig.inRange ⟨16, 16, 8, 8333, 0, 1, 9⟩) = some 6 ∧
    busy.lockFault .b ⟨16, 16, 8, 16666, 500, 3, 2⟩ = some .front ∧ busy.lockFault .b ⟨16, 16, 8, 16667, 500, 3, 2⟩ = none ∧
    busy.lockFault .a ⟨17, 16, 8, 16667, 500, 3, 2⟩ = none ∧ busy.lockFault .a ⟨18, 18, 8, 2501, 500, 3, 2⟩ = none ∧
    (SourceConfig.inRange ⟨1920, 16, 8, 16667, 500, 3, 2⟩).all id = true ∧
    (∃ q, busy.placement 2 = some q ∧ q.names .a = true ∧ q.fitsGeometry (busy.geometryWith .a ⟨1920, 16, 8, 16667, 500, 3, 2⟩) = false) ∧
    (∃ r, busy.placement 0 = some r ∧ r.names .a = true ∧ r.fitsGeometry (busy.geometryWith .a ⟨1920, 16, 8, 16667, 500, 3, 2⟩) = true) :=
  ⟨by decide, by decide, by decide, by decide, by decide, by decide, by decide, by decide, by decide +kernel, by decide +kernel,
    by decide +kernel, by decide +kernel, by decide, ⟨_, rfl, by decide +kernel, by decide +kernel⟩,
    ⟨_, rfl, by decide +kernel, by decide +kernel⟩⟩

/-- ScreenSettingsAreStored: the bounds of SET_SCREEN, a screen that is DOWN and empty, one with records, one that is not DOWN. -/
theorem witness_ScreenSettingsAreStored :
    State.reset.resetLow = false ∧ screenOf 3 = some .s3 ∧ firstFalse (ScreenConfig.inRange ⟨320, 240, 8, 255⟩) = none ∧
    firstFalse (ScreenConfig.inRange ⟨2560, 1600, 10, 0⟩) = none ∧ (State.reset.link .s3).state = .down ∧
    (∀ x : Handle, State.reset.placement x = none) ∧ (∃ p, opened.placement 0 = some p ∧ p.screen = .s2) ∧ (opened.link .s2).state = .down ∧
    (busy.link .s3).state ≠ .down ∧ ¬ (320 ≤ (319 : Half).toNat) ∧ ¬ ((2561 : Half).toNat ≤ 2560) ∧ ¬ (240 ≤ (239 : Half).toNat) ∧
    ¬ ((1601 : Half).toNat ≤ 1600) ∧ (9 : Byte).toNat ≠ 8 :=
  ⟨rfl, by decide, by decide, by decide, rfl, by decide +kernel, ⟨_, rfl, rfl⟩, by decide +kernel, by decide +kernel, by decide, by decide,
    by decide, by decide, by decide⟩

/-- LinkCommandsMoveTheLink: a link in DOWN, in RESETTING, and in the four other states. -/
theorem witness_LinkCommandsMoveTheLink :
    (State.reset.link .s0).state = .down ∧ (busy.link .s3).state = .resetting ∧ (busy.link .s0).state = .up ∧
    (busy.link .s1).state = .training ∧ ((linked .s0 fun l => { l with state := .halted }).link .s0).state = .halted ∧
    ((linked .s0 fun l => { l with state := .recovering }).link .s0).state = .recovering := by decide +kernel

/-- SetDomainWaitsAsPending: FREE and LOCK settings at their bounds, and each kind that is refused. -/
theorem witness_SetDomainWaitsAsPending :
    domainOf 1 = some .rear ∧ domainOf 2 = none ∧ (8333 : Half).toNat = 8333 ∧ (40000 : Half).toNat = 40000 ∧
    inputOf 3 = some .d ∧ (16166 : Half).toNat + (State.reset.input .d).config.tolerance < (State.reset.input .d).config.period ∧
    (State.reset.input .d).config.period ≤ (16167 : Half).toNat + (State.reset.input .d).config.tolerance ∧ inputOf 4 = none ∧
    State.reset.requestedMode 0 .absent = some .free ∧ State.reset.requestedMode 0 (.present 3 0) = none ∧
    State.reset.requestedMode 1 .absent = none ∧ State.reset.requestedMode 2 .absent = none ∧ State.reset.requestedMode 0 .unknown = none := by
  decide +kernel

/-- TakeNoticeReturnsTheMostImportant: an empty set; and a set whose first entry stands before all others. -/
theorem witness_TakeNoticeReturnsTheMostImportant :
    State.reset.notices.entries = [] ∧ noticed.resetLow = false ∧ NoticeLaw noticed ∧
    (∀ x ∈ noticed.notices.entries, x ≠ ⟨.safetyView 8, 1⟩ → 1 < x.key.kind.priority) ∧ (⟨.safetyView 8, 1⟩ : NoticeEntry) ∈ noticed.notices.entries := by
  decide +kernel

/-- MaskNoticesAppliesTheWholeList: one entry, all nine kinds, and the lists refused. -/
theorem witness_MaskNoticesAppliesTheWholeList :
    readAll maskPairOf [(7, 0)] = some [(.applied, true)] ∧
    (∃ ps, readAll maskPairOf [(9, 1), (8, 0), (7, 1), (6, 0), (5, 1), (4, 0), (3, 1), (2, 0), (1, 1)] = some ps ∧ ps.length = 9 ∧
      (ps.map Prod.fst).Nodup) ∧
    readAll maskPairOf [(0, 0)] = none ∧ readAll maskPairOf [(10, 0)] = none ∧ readAll maskPairOf [(1, 2)] = none ∧
    readAll maskPairOf [] = some [] ∧ readAll maskPairOf [(7, 0), (7, 1)] = some [(.applied, true), (.applied, false)] :=
  ⟨by decide, ⟨_, rfl, rfl, by decide⟩, by decide, by decide, by decide, by decide, by decide⟩

/-- PortTransactionsTouchOnlyThePort: an empty buffer, and a held response of a two-byte body. -/
theorem witness_PortTransactionsTouchOnlyThePort :
    State.reset.resetLow = false ∧ State.reset.port.buffer = none ∧ opened.resetLow = false ∧ opened.port.buffer = some ⟨.ok, [0, 1]⟩ := by
  decide +kernel

/-- FramingCheckInOrder: codes and lengths at their bounds. -/
theorem witness_FramingCheckInOrder :
    (1 : Byte) ≠ 240 ∧ (23 : Byte).toNat = 23 ∧ (0 : Byte).toNat = 0 ∧ (22 : Byte).toNat ≤ 22 ∧ 251 ≤ (251 : Byte).toNat ∧
    (250 : Byte).toNat ≤ 250 ∧ decodeTransaction [21, 0] = some .takeNotice := by decide +kernel

/-- FrameStartOpensAFrame and LockInputSchedulesTheDomain: an input without a frame open, LOCKED and naming no previous start or one; with a
FREE slot and with none. -/
theorem witness_FrameStartOpensAFrame :
    busy.resetLow = false ∧ (busy.input .b).openFrame = none ∧ (busy.input .d).openFrame = none ∧ NoticeLaw busy ∧
    (∃ f, (busy.input .a).openFrame = some f) ∧
    (let s := State.reset.modInput .a fun c => { c with slots := ⟨ready true 0 5 [], ready false 1 4 [], ready false 1 3 [], ready false 1 2 [], ready false 1 1 []⟩ };
      (s.input .a).openFrame = none ∧ (s.input .a).freeSlot = none) :=
  ⟨by decide +kernel, by decide +kernel, by decide +kernel, busy_blocks_safe.2.2.2.2.2, ⟨_, rfl⟩, by decide +kernel⟩

theorem witness_LockInputSchedulesTheDomain :
    relocking.resetLow = false ∧ (relocking.input .d).openFrame = none ∧
    exec (.frameStart .d 0) relocking = .next (after (.frameStart .d 0) relocking) ∧
    (relocking.domain .rear).settings.mode = .lock .d 2000 ∧ (relocking.input .d).monitor = .locked ∧
    (relocking.input .d).previousStart = some 2096667 ∧ (relocking.domain .front).settings.mode = .free ∧
    (let s := relocking.modInput .d fun c => { c with monitor := .lost }; (s.input .d).monitor ≠ .locked ∧ (s.input .d).openFrame = none) :=
  ⟨by decide +kernel, by decide +kernel, exec_after _ _, by decide +kernel, by decide +kernel, by decide +kernel, by decide +kernel,
    by decide +kernel⟩

/-- LineIsStoredOrDiscarded: no frame open; each reason to discard at its bound; and the last line, stored. -/
theorem witness_LineIsStoredOrDiscarded :
    (State.reset.input .a).openFrame = none ∧ receiving.resetLow = false ∧
    (receiving.input .a).openFrame = some ⟨some .k0, [3], false, .met⟩ ∧ (receiving.input .a).config.height ≤ (16 : Half).toNat ∧
    (List.replicate 15 (⟨0, 0, 0⟩ : RawPixel)).length ≠ (receiving.input .a).config.width ∧ (3 : Half).toNat ∈ [3] ∧
    ((15 : Half).toNat < (receiving.input .a).config.height ∧
      (List.replicate 16 (⟨0, 0, 0⟩ : RawPixel)).length = (receiving.input .a).config.width ∧ (15 : Half).toNat ∉ [3]) ∧ LineLaw receiving := by
  decide +kernel

/-- MonitorCountsGoodAndBadFrames: the three states that count, at and below their counts. -/
theorem witness_MonitorCountsGoodAndBadFrames :
    (busy.input .a).monitor = .locked ∧ (busy.input .b).badRun + 1 = (busy.input .b).config.lossCount ∧
    ((State.reset.modInput .a fun c => { c with monitor := .acquiring, goodRun := 2 }).input .a).goodRun + 1 = 3 ∧
    ((State.reset.modInput .a fun c => { c with monitor := .lost }).input .a).monitor = .lost := by decide +kernel

/-- FrameEndJudgesAndPublishes: a frame open in a state of the store's laws. -/
theorem witness_FrameEndJudgesAndPublishes :
    busy.resetLow = false ∧ (busy.input .a).openFrame = some ⟨some .k1, [0, 3], false, .met⟩ ∧ LineLaw busy ∧ SlotLaw busy :=
  ⟨by decide +kernel, by decide +kernel, busy_store_safe.2.2.1, busy_store_safe.2.1⟩

/-- ExpiryCountsOneBadFrame: not due; due with a frame open in a slot; due with none open. -/
theorem witness_ExpiryCountsOneBadFrame :
    busy.resetLow = false ∧ (busy.input .a).timer ≠ some busy.timeBase ∧
    (let s := { busy with timeBase := 26000 }; (s.input .a).timer = some s.timeBase ∧
      (s.input .a).openFrame.bind OpenFrame.slot = some .k1) ∧
    (let s := { busy with timeBase := 25900 }; (s.input .b).timer = some s.timeBase ∧ (s.input .b).openFrame.bind OpenFrame.slot = none) := by
  decide +kernel

/-- DomainFrameStartAdvancesTheDomain: not due; due with LOCK settings pending; and with none, in each mode state. -/
theorem witness_DomainFrameStartAdvancesTheDomain :
    busy.resetLow = false ∧ (busy.domain .rear).nextStart ≠ busy.timeBase ∧ (busy.domain .front).nextStart = busy.timeBase ∧
    (busy.domain .front).pendingSettings = some ⟨.lock .b 16166, 20000⟩ ∧
    ((after (.domainFrameStart .front) busy).domain .front).mode = .locked ∧
    (let s := busy.modDomain .front fun c => { c with pendingSettings := none, mode := .holdover, heldPeriod := none };
      (s.domain .front).nextStart = s.timeBase ∧ ((after (.domainFrameStart .front) s).domain .front).mode = .holdover) ∧
    (let s := busy.modDomain .front fun c => { c with pendingSettings := some ⟨.free, 8333⟩ };
      (s.domain .front).nextStart = s.timeBase ∧ ((after (.domainFrameStart .front) s).domain .front).mode = .free) := by decide +kernel

/-- SyncNeedsThreeAgreeingIntervals: two UP screens that agree, that do not, and a screen that is not UP. -/
theorem witness_SyncNeedsThreeAgreeingIntervals :
    intervalVerdict ⟨true, some 7⟩ ⟨true, some 7⟩ = .agree ∧ intervalVerdict ⟨true, some 0⟩ ⟨true, some 65535⟩ = .disagree ∧
    ¬ ((⟨true, none⟩ : Summary).up = true ∧ (⟨false, none⟩ : Summary).up = true) ∧ intervalVerdict ⟨true, none⟩ ⟨true, some 1⟩ = .neutral ∧
    (∀ e ∈ ([(⟨true, some 1⟩, ⟨true, some 1⟩), (⟨true, some 2⟩, ⟨true, some 2⟩), (⟨true, some 3⟩, ⟨true, some 3⟩)] : List (Summary × Summary)),
      e.1.up = true ∧ e.2.up = true) := by decide

/-- FrameStartStaysInItsDomain: a FRONT frame start, with a record of the other domain and a slot of an input. -/
theorem witness_FrameStartStaysInItsDomain :
    exec (.domainFrameStart .front) busy = .next (after (.domainFrameStart .front) busy) ∧ Domain.rear ≠ .front ∧ screenDomain .s2 ≠ .front ∧
    (∃ p, busy.placement 2 = some p ∧ screenDomain p.screen ≠ .front) ∧
    (after (.domainFrameStart .front) busy).domain .front ≠ busy.domain .front :=
  ⟨exec_after _ _, by decide, by decide, ⟨_, rfl, by decide +kernel⟩, by decide +kernel⟩

/-- BetweenFrameStartsNothingShownChanges: a LIVE armed record while a frame of its source ends, and an armed NEW one. -/
theorem witness_BetweenFrameStartsNothingShownChanges :
    isFrameStart (.frameEnd .a) = false ∧ Instr.frameEnd .a ≠ .resetnAssert ∧ Instr.frameEnd .a ≠ .resetnRelease ∧
    exec (.frameEnd .a) busy = .next (after (.frameEnd .a) busy) ∧ (∃ p, busy.placement 0 = some p ∧ p.committed ≠ none ∧ p.armed = true) ∧
    ((after (.commit (some [2])) opened).placement 0).map (fun p => (p.committed.isNone, p.armed)) = some (true, true) :=
  ⟨rfl, by decide, by decide, exec_after _ _, ⟨_, rfl, by decide +kernel, rfl⟩, by decide +kernel⟩

/-- GenerationsAdvanceOnTheirEvents: each of the four events advances one, 255 to 0 among them. -/
theorem witness_GenerationsAdvanceOnTheirEvents :
    exec (.retire 4 3 0) busy = .next (after (.retire 4 3 0) busy) ∧ Instr.retire 4 3 0 ≠ .resetnRelease ∧
    ((after (.retire 4 3 0) busy).record 4).generation = 4 ∧
    ((after (.openPlacement 2 0 1 (some selectable)) (examples.setRecord 0 ⟨255, none⟩)).record 0).generation = 0 ∧
    ((after (.amend 0 1 0 (some [.layer 1])) opened).record 0).generation = 2 ∧
    ((after (.domainFrameStart .rear) { busy with timeBase := 16667 }).record 4).generation = 4 :=
  ⟨exec_after _ _, by decide, by decide +kernel, by decide +kernel, by decide +kernel, by decide +kernel⟩

/-- WindowAndResetEndAtAFrameStart: the window's last frame start without and with a returning receiver's second run, and a reset count of 1. -/
theorem witness_WindowAndResetEndAtAFrameStart :
    busy.resetLow = false ∧ (busy.domain (screenDomain .s1)).nextStart = busy.timeBase ∧ (busy.link .s1).state = .training ∧
    (busy.link .s1).windowCount = 31 ∧ ¬ ((busy.link .s1).interval.trainedSeen = true ∧ 2 ≤ (busy.link .s1).trainedRun) ∧
    (busy.domain (screenDomain .s3)).nextStart ≠ busy.timeBase ∧
    (let s := { busy with timeBase := 16667 }; (s.domain (screenDomain .s3)).nextStart = s.timeBase ∧ (s.link .s3).state = .resetting ∧
      (s.link .s3).resetCount = some 1) := by decide +kernel

/-- ApplicationGivesTheCheckedSet: a passing COMMIT of two screens, one of which has a join, a move between layers and a retirement staged. -/
theorem witness_ApplicationGivesTheCheckedSet :
    let s := ordering (.opened .s1 .ordinary false (solid 3 ⟨0, 0, 1920, 720⟩))
    s.resetLow = false ∧ ImageLaw s ∧ JoinLaw s ∧ readAll screenOf [1, 0] = some [.s1, .s0] ∧ ([.s1, .s0] : List Screen).Nodup ∧
    (∀ x ∈ ([.s1, .s0] : List Screen), s.admissionFault x = none) ∧ exec (.commit (some [1, 0])) s = .next (after (.commit (some [1, 0])) s) :=
  ⟨by decide +kernel, by decide +kernel, by decide +kernel, by decide, by decide, by decide +kernel, exec_after _ _⟩

/-- ViewChangesAreNoticed: a frame start that changes the views of an ORDINARY and of a SAFETY record, keeps one, and frees one. -/
def changing : State :=
  let s := put (put (put { State.reset with timeBase := 16667 } 0 { live .s0 (solid 0 ⟨0, 0, 9, 9⟩) 0 with view := some .filled }) 1
    { live .s0 { solid 7 ⟨20, 0, 9, 9⟩ with holdLimit := 1 } 1 with cls := .safety, view := some .filled }) 2
    { live .s1 (solid 0 ⟨0, 0, 9, 9⟩) 0 with retireStaged := true, armed := true }
  { s with notices := { s.notices with entries := [⟨.safetyView 1, 255⟩, ⟨.view 2, 4⟩] } }

theorem witness_ViewChangesAreNoticed :
    NoticeLaw changing ∧ NewLaw changing ∧
    exec (.domainFrameStart .front) changing = .next (after (.domainFrameStart .front) changing) ∧
    (∃ p, changing.placement 0 = some p ∧ p.cls = .ordinary) ∧ (∃ p, changing.placement 1 = some p ∧ p.cls = .safety) ∧
    (after (.domainFrameStart .front) changing).placement 2 = none ∧
    (after (.domainFrameStart .front) changing).notices.entries = [⟨.safetyView 1, 255⟩, ⟨.view 0, 1⟩, ⟨.applied .s1, 1⟩] :=
  ⟨by decide +kernel, by decide +kernel, exec_after _ _, ⟨_, rfl, rfl⟩, ⟨_, rfl, rfl⟩, by decide +kernel, by decide +kernel⟩

/-- ChannelArithmeticIsExact: values at the bounds of their ranges. -/
theorem witness_ChannelArithmeticIsExact :
    (255 : BitVec 10).toNat < 256 ∧ (256 ≤ 256 ∧ 1023 ≤ 1023) ∧ (1024 ≤ 1024) ∧ expandChannel 8 255 = 1023 ∧
    gainChannel 2047 1023 = 1023 := by decide

/-- KeyPredicatesAreOpposites: one of the four pairs, and a key of each span. -/
theorem witness_KeyPredicatesAreOpposites :
    (Predicate.lt, Predicate.nlt) ∈ [(Predicate.eq, Predicate.neq), (.lt, .nlt), (.le, .nle), (.unord, .ord)] ∧
    (⟨.unord, .single, ⟨0, 0, 0⟩⟩ : Key).span = .single ∧ (⟨.ord, .packed, ⟨0, 0, 0⟩⟩ : Key).span = .packed := by decide

/-- SamplesStayInTheSource: the first and last target column, and a slot whose four neighbours are stored, and one with a void neighbour. -/
theorem witness_SamplesStayInTheSource :
    let z : Slot := ⟨.ready, true, 1, 1, some (2, 2), [(0, [⟨1, 2, 3⟩, ⟨4, 5, 6⟩]), (1, [⟨7, 8, 9⟩, ⟨0, 0, 0⟩])]⟩
    (0 < 1600 ∧ 1599 < 1600) ∧ (∀ c ∈ [0, 1], ∀ l ∈ [0, 1], z.read c l ≠ none) ∧ z.read 2 0 = none ∧
    sampleSlot z 0 0 2 2 ⟨0, 0, 2, 2⟩ 1 1 = some ⟨0, 0, 0⟩ ∧ sampleSlot z 1 0 2 2 ⟨0, 0, 2, 2⟩ 0 0 = none := by decide +kernel

/-- ComposedChannelsStayInRange: a frame in composition for an 8-bit screen, in a state whose values lie in their ranges. -/
theorem witness_ComposedChannelsStayInRange :
    RangeLaw (waiting (.lineHandover .s0)) ∧ step (waiting (.lineHandover .s0)) = .next (after (.lineHandover .s0) busy) ∧ ((busy.composer .s0).composition.map fun m => m.depth) = some 8 ∧
    composedPixel busy (busy.composer .s0).background [⟨0, ⟨0, 0, 64, 64⟩, .slot ⟨.a, .k0⟩ 0 0 16 16, none, 256, .over, ⟨0, 0, 0⟩⟩] 5 1 =
      ⟨100, 200, 300⟩ :=
  ⟨(waiting_safe _).1.2.1.2.2.2.2.2.2, (waiting_safe _).2, by decide +kernel, by decide +kernel⟩

/-- LineHandoverSendsTheNextLine: no composition; a line and the last line, with a link that is UP and one that is not. -/
theorem witness_LineHandoverSendsTheNextLine :
    busy.resetLow = false ∧ (busy.composer .s1).composition = none ∧ (∃ m, (busy.composer .s0).composition = some m ∧ m.nextLine + 1 < m.height) ∧
    (busy.link .s0).state = .up ∧ (busy.link .s0).transmission = some ⟨3, 1⟩ ∧
    (∃ m, (handing.composer .s0).composition = some m ∧ ¬ (m.nextLine + 1 < m.height)) ∧
    (let s := handing.modLink .s0 fun l => { l with state := .halted }; (s.link .s0).state ≠ .up) :=
  ⟨by decide +kernel, by decide +kernel, ⟨_, rfl, by decide⟩, by decide +kernel, by decide +kernel, ⟨_, rfl, by decide⟩, by decide +kernel⟩

/-- CompositionIgnoresTheLinkState: a link halted with the same configuration, tone and pending choice. -/
theorem witness_CompositionIgnoresTheLinkState :
    let l := { busy.link .s0 with state := .halted, windowCount := 32, transmission := none, missingTotal := 65535 }
    l.config = (busy.link .s0).config ∧ l.tone = (busy.link .s0).tone ∧ l.pendingChoice = (busy.link .s0).pendingChoice ∧
    l ≠ busy.link .s0 := by decide +kernel

/-- StatusReturnIsTakenOrIgnored: a sound return with a choice, damaged ones, and links that take and that ignore it; panel OK and FAULT. -/
theorem witness_StatusReturnIsTakenOrIgnored :
    decodeReturn true [255, 255, 1, 0, 255, 7] = some ⟨65535, .trained, .ok, 255, some 7⟩ ∧
    decodeReturn true [0, 0, 0, 1, 0, 255] = some ⟨0, .training, .fault, 0, none⟩ ∧ decodeReturn false [0, 0, 0, 0, 0, 255] = none ∧
    decodeReturn true [0, 0, 2, 0, 0, 255] = none ∧ decodeReturn true [0, 0, 0, 0, 0, 254] = none ∧ decodeReturn true [0, 0, 0, 0, 0] = none ∧
    busy.resetLow = false ∧ (busy.link .s0).state = .up ∧ (busy.link .s1).state = .training ∧ (busy.link .s3).state = .resetting ∧
    (State.reset.link .s0).state = .down := by decide +kernel

/-- LinkFrameStartJudgesTheInterval: a link that is UP, at and below its two limits. -/
theorem witness_LinkFrameStartJudgesTheInterval :
    let l := { LinkContext.reset with state := .up, missingRun := 3, errorRun := 2, config := ⟨1920, 720, 10, 10⟩ }
    (l.state = .up ∧ l.interval.returned = false ∧ 3 ≤ l.missingRun) ∧
    (let m := { l with interval := ⟨true, true, true, none⟩ }; m.config.threshold ≠ 0 ∧ m.interval.overThreshold = true ∧ 2 ≤ m.errorRun) ∧
    (let m := { l with interval := ⟨true, true, false, none⟩ }; ¬ (m.interval.returned = false ∧ 3 ≤ m.missingRun) ∧ m.missingRun ≤ 3 ∧
      m.errorRun ≤ 2 ∧ ¬ (m.config.threshold ≠ 0 ∧ m.interval.overThreshold = true ∧ 2 ≤ m.errorRun)) := by decide

/-- A run of frame starts in which a link finds these interval records. -/
def training (records : Nat → IntervalRecord) : Nat → LinkContext
  | 0 => LinkContext.toTraining .reset
  | n + 1 => ({ training records n with interval := records n }).frameStart n

/-- TrainingEndsWithinItsWindow: a receiver that never answers is HALTED at the 32nd frame start, one that always does is UP at the third. -/
theorem witness_TrainingEndsWithinItsWindow :
    (training (fun _ => .empty) 0).state = .training ∧ (training (fun _ => .empty) 0).trainedRun = 0 ∧
    (training (fun _ => .empty) 0).windowCount = 0 ∧ (training (fun _ => .empty) 31).state = .training ∧
    (training (fun _ => .empty) 32).state = .halted ∧ (training (fun _ => ⟨true, true, false, none⟩) 3).state = .up := by decide +kernel

/-- LinkStateMovesOnlyByItsTable: a frame start that moves three links, and two that a command and a return move. -/
theorem witness_LinkStateMovesOnlyByItsTable :
    Instr.domainFrameStart .front ≠ .resetnAssert ∧ Instr.domainFrameStart .front ≠ .resetnRelease ∧
    exec (.domainFrameStart .front) busy = .next (after (.domainFrameStart .front) busy) ∧
    ((after (.domainFrameStart .front) busy).link .s0).state = .recovering ∧ ((after (.domainFrameStart .front) busy).link .s1).state = .halted ∧
    ((after (.domainFrameStart .rear) { busy with timeBase := 16667 }).link .s3).state = .training ∧
    ((after (.resetLink 0) busy).link .s0).state = .resetting ∧
    ((after (.statusReturn .s2 true [0, 0, 1, 1, 0, 255]) busy).link .s2).state = .recovering :=
  ⟨by decide, by decide, exec_after _ _, by decide +kernel, by decide +kernel, by decide +kernel, by decide +kernel, by decide +kernel⟩

/-- EveryStateChangeIsNoticed: a frame start at which two link states change and a sync state does, with the set lawful before. -/
theorem witness_EveryStateChangeIsNoticed :
    Instr.domainFrameStart .front ≠ .takeNotice ∧ (∀ l, Instr.domainFrameStart .front ≠ .maskNotices l) ∧
    Instr.domainFrameStart .front ≠ .resetnAssert ∧ Instr.domainFrameStart .front ≠ .resetnRelease ∧ NoticeLaw busy ∧
    exec (.domainFrameStart .front) busy = .next (after (.domainFrameStart .front) busy) ∧
    (after (.domainFrameStart .front) busy).notices.entries =
      [⟨.linkState .s0, 1⟩, ⟨.linkState .s1, 1⟩, ⟨.syncState .front, 1⟩, ⟨.view 0, 255⟩, ⟨.applied .s0, 1⟩, ⟨.drop .a, 3⟩] :=
  ⟨by decide, nofun, by decide, by decide, busy_blocks_safe.2.2.2.2.2, exec_after _ _, by decide +kernel⟩

/-- ReadySlotsAreNotWritten: a READY slot with two holders, at an event of its own input and at a frame start. -/
theorem witness_ReadySlotsAreNotWritten :
    Instr.frameEnd .a ≠ .resetnRelease ∧ SlotLaw busy ∧ NewLaw busy ∧ exec (.frameEnd .a) busy = .next (after (.frameEnd .a) busy) ∧
    isFrameStart (.frameEnd .a) = false ∧ (busy.slot ⟨.a, .k0⟩).state = .ready ∧ 1 ≤ (busy.slot ⟨.a, .k0⟩).holders ∧
    ((after (.frameEnd .a) busy).slot ⟨.a, .k0⟩).state = .ready :=
  ⟨by decide, busy_store_safe.2.1, busy_table_safe.2.1, exec_after _ _, rfl, by decide +kernel, by decide +kernel, by decide +kernel⟩

/-- InputEventsTouchOneInput: a FRAME_START of A at work, whose frame is open and to which FRONT is locked. -/
theorem witness_InputEventsTouchOneInput :
    exec (.frameStart .a 1) busy = .next (after (.frameStart .a 1) busy) ∧ (busy.domain .front).settings.mode = .lock .a 2000 ∧
    (∀ delay, (busy.domain .rear).settings.mode ≠ .lock .a delay) ∧ ((after (.frameStart .a 1) busy).input .a).frameNumber = 7 :=
  ⟨exec_after _ _, by decide +kernel, fun _ h => by
    (rw [show (busy.domain .rear).settings.mode = .free by decide +kernel] at h; cases h), by decide +kernel⟩

/-! ### Witnesses of the clauses on a part of a frame start, and at the bounds of the bytes -/

/-- QueriesReportAndChangeNothing, FreezeAndThawSetTheRequest, ScreenSettingsAreStored and LinkCommandsMoveTheLink: the first byte that names no
handle, no screen and no input, and no domain. -/
theorem witness_bytes_that_name_nothing : 64 ≤ (64 : Byte).toNat ∧ 4 ≤ (4 : Byte).toNat ∧ 2 ≤ (2 : Byte).toNat ∧ busy.resetLow = false := by
  decide +kernel

/-- FreezeAndThawSetTheRequest, step 3 of a frame start: a LIVE record with FREEZE requested and a slot of another input, one without a request,
a NEW one, one of another screen; and the due frame start that takes the request. -/
theorem witness_FreezeAndThawSetTheRequest_taken :
    let s := busy.modPlacement 0 fun p => { p with freezeRequest := some .freeze, latched := some ⟨.b, .k0⟩ }
    (∃ p m, s.placement 0 = some p ∧ p.committed = some m ∧ p.screen = .s0 ∧ p.freezeRequest = some .freeze ∧ p.frozen = false ∧
      (p.latched.any fun x => decide (m.source ≠ .input x.input)) = true) ∧
    (∃ p, s.placement 1 = some p ∧ p.freezeRequest = none) ∧ (∃ p, s.placement 2 = some p ∧ p.committed = none) ∧
    (∃ p, s.placement 4 = some p ∧ p.screen ≠ .s0) ∧ ((s.takeFreezes .s0).placement 0).map Placement.latched = some none ∧
    s.resetLow = false ∧ (s.domain .front).nextStart = s.timeBase ∧ exec (.domainFrameStart .front) s = .next (after (.domainFrameStart .front) s) ∧
    ∃ q, (after (.domainFrameStart .front) s).placement 0 = some q ∧ screenDomain q.screen = .front ∧ q.committed ≠ none ∧ q.frozen = true :=
  ⟨⟨_, _, rfl, rfl, rfl, rfl, rfl, by decide +kernel⟩, ⟨_, rfl, rfl⟩, ⟨_, rfl, rfl⟩, ⟨_, rfl, by decide +kernel⟩, by decide +kernel,
    by decide +kernel, by decide +kernel, exec_after _ _, ⟨_, rfl, by decide +kernel, by decide +kernel, by decide +kernel⟩⟩

/-- AdmissionChecksFindTheFirstFault: a SAFETY record below the pair found that meets nothing; and the selectable records of a rear screen, three,
one and none, in an order that is not theirs, and of a front screen. -/
theorem witness_AdmissionChecksFindTheFirstFault_below :
    let p := live .s0 (solid 0 ⟨0, 0, 9, 9⟩) 0
    let c (h : Handle) (cls : PlacementClass) (sel : Bool) (t : Rect) : Candidate := ⟨h, { p with cls := cls, selectable := sel }, solid 0 t⟩
    occlusionFault [c 5 .safety false ⟨40, 0, 9, 9⟩, c 1 .safety false ⟨0, 0, 9, 9⟩, c 2 .ordinary false ⟨9, 0, 9, 9⟩,
      c 3 .ordinary false ⟨8, 8, 1, 1⟩] = some (1, 3) ∧
    isRearScreen .s2 = true ∧ isRearScreen .s0 = false ∧
    (let l := [c 63 .ordinary true ⟨0, 0, 9, 9⟩, c 4 .ordinary true ⟨0, 0, 9, 9⟩, c 0 .ordinary false ⟨0, 0, 9, 9⟩, c 9 .ordinary true ⟨0, 0, 9, 9⟩];
      (∀ h : Handle, (h = 4 ∨ h = 9 ∨ h = 63) ↔ ∃ x ∈ l, x.handle = h ∧ x.placement.selectable = true) ∧ selectFault .s2 l = some (4, 9) ∧
      selectFault .s0 l = none) ∧
    selectFault .s3 [c 4 .ordinary true ⟨0, 0, 9, 9⟩] = none ∧ selectFault .s3 [] = none := by decide +kernel

/-- ScreenSettingsAreStored and CompositionIgnoresTheLinkState: a due frame start, whose new frame in composition carries its frame number and
one set of drawing parameters for each LIVE placement; and the views HIDDEN, FILLED, ALTERNATE and FROZEN after one. -/
theorem witness_a_due_frame_start_composes :
    busy.resetLow = false ∧ (busy.domain (screenDomain .s0)).nextStart = busy.timeBase ∧
    exec (.domainFrameStart (screenDomain .s0)) busy = .next (after (.domainFrameStart (screenDomain .s0)) busy) ∧
    (((after (.domainFrameStart .front) busy).composer .s0).composition.map fun c => (c.frame, c.width, c.draws.length, c.nextLine)) =
      some (4, 320, 2, 0) ∧
    (let with' (f : Placement → Placement) (s : State) : State := s.modPlacement 0 fun p => f { p with armed := false }
      let lost (s : State) : State := s.modInput .a fun c => { c with monitor := .lost }
      let policy (x : Policy) (p : Placement) : Placement := { p with committed := p.committed.map fun m => { m with policy := x, alternate := none } };
      [busy, lost busy, lost (with' (policy .fill) busy), lost (with' (policy .hide) busy), lost (with' (policy .hold) busy),
        with' (fun p => { p with frozen := true }) busy].map (fun s => ((after (.domainFrameStart .front) s).placement 0).bind Placement.view) =
        [some .showing, some .alternate, some .filled, some .hidden, some .holding, some .frozen]) :=
  ⟨by decide +kernel, by decide +kernel, exec_after _ _, by decide +kernel, by decide +kernel⟩

/-- TakeNoticeReturnsTheMostImportant, the current value of each kind: a record with a view and without one, the last state of each list, a
selectable LIVE record on an input and on SOLID, and a screen without one. -/
theorem witness_TakeNoticeReturnsTheMostImportant_values :
    (noticed.placement 8).bind Placement.view = some .alternate ∧
    [View.showing, .holding, .filled, .alternate, .hidden, .frozen][3]? = some .alternate ∧ noticed.currentValue (.safetyView 8) = [1, 3] ∧
    (busy.placement 2).bind Placement.view = none ∧ (busy.placement 63).bind Placement.view = none ∧
    [LinkState.down, .training, .up, .recovering, .halted, .resetting][5]? = some (busy.link .s3).state ∧
    [MonitorState.absent, .acquiring, .locked, .lost][2]? = some (busy.input .a).monitor ∧
    [SyncState.unsynced, .synced, .syncLost][2]? = some (busy.domain .front).sync ∧
    [ModeState.free, .locked, .holdover][1]? = some (busy.domain .front).mode ∧
    (let selected (s : State) (sc : Screen) (h : Handle) (m : Image) : Prop :=
        ∃ p ∈ s.placement h, p.screen = sc ∧ p.selectable = true ∧ p.committed = some m;
      selected busy .s2 4 chosen ∧ (∀ h : Handle, ∀ p ∈ busy.placement h, p.screen = .s2 → p.committed ≠ none → h = 4) ∧
      busy.currentValue (.passengerChoice .s2) = [1, 0] ∧
      (∀ h : Handle, ∀ p ∈ busy.placement h, p.screen = .s0 → p.selectable = false) ∧ busy.currentValue (.passengerChoice .s0) = [0] ∧
      (let s := busy.modPlacement 4 fun p => { p with committed := some { chosen with source := .solid } };
        selected s .s2 4 { chosen with source := .solid } ∧ s.currentValue (.passengerChoice .s2) = [1, 4])) :=
  ⟨by decide +kernel, by decide, by decide +kernel, by decide +kernel, by decide +kernel, by decide +kernel, by decide +kernel,
    by decide +kernel, by decide +kernel, ⟨_, rfl, by decide +kernel, by decide +kernel, by decide +kernel⟩, by decide +kernel,
    by decide +kernel, by decide +kernel, by decide +kernel, ⟨_, rfl, by decide +kernel, by decide +kernel, by decide +kernel⟩, by decide +kernel⟩

/-- PortTransactionsTouchOnlyThePort, the transaction state: CS high and low, RESETn low, and a transaction of each kind, with an empty buffer and
with a response. -/
theorem witness_PortTransactionsTouchOnlyThePort_transaction :
    (opened.port.csLow = false ∧ opened.port.transaction = .idle ∧ opened.resetLow = false) ∧
    ({ opened with resetLow := true }.resetLow = true ∧ { opened with resetLow := true }.port.transaction = .idle) ∧
    (opened.csFall.port.csLow = true ∧ opened.csFall.port.transaction = .opening ∧ opened.csFall.resetLow = false) ∧
    (opened.csFall.clockByte 7).port.transaction = .command [7] ∧ (opened.csFall.clockByte 240).port.transaction = .fetch 0 ∧
    (opened.csFall.clockByte 240).port.buffer = some ⟨.ok, [0, 1]⟩ ∧ (State.reset.csFall.clockByte 240).port.buffer = none ∧
    ([7, 1, 0].foldl State.clockByte opened.csFall).csRise = { opened with pending := [.lookup 0] } := by decide +kernel

/-- WindowAndResetEndAtAFrameStart, no effect at a due frame start: a link that is UP, one whose window has a frame start left, one that becomes UP
at it, and one whose reset count is 2. -/
theorem witness_WindowAndResetEndAtAFrameStart_none :
    (busy.domain (screenDomain .s0)).nextStart = busy.timeBase ∧
    ((busy.link .s0).state ≠ .training ∧ (busy.link .s0).state ≠ .recovering) ∧ (busy.link .s0).state ≠ .resetting ∧
    (let s := busy.modLink .s1 fun l => { l with windowCount := 30 };
      (s.link .s1).windowCount < 31 ∧ after (.trainingWindowExpiry .s1) s = s) ∧
    (let s := busy.modLink .s1 fun l => { l with trainedRun := 2, interval := ⟨true, true, false, none⟩ };
      ((s.link .s1).interval.trainedSeen = true ∧ 2 ≤ (s.link .s1).trainedRun) ∧ after (.trainingWindowExpiry .s1) s = s) ∧
    (let s := { busy with timeBase := 16667 }.modLink .s3 fun l => { l with resetCount := some 2 };
      (s.domain (screenDomain .s3)).nextStart = s.timeBase ∧ (s.link .s3).resetCount ≠ some 1 ∧ after (.linkResetEnd .s3) s = s) := by
  decide +kernel

/-- ApplicationGivesTheCheckedSet, the records: none armed; an armed LIVE one that keeps its source and one that changes it; a NEW one that joins
and one whose retirement is staged, in the state the COMMIT of the example of section 2.4 leaves; and a due frame start. -/
theorem witness_ApplicationGivesTheCheckedSet_records :
    (∀ h : Handle, ∀ p ∈ State.reset.placement h, p.screen = .s0 → p.armed = false) ∧
    (HolderLaw busy ∧ NewLaw busy ∧ ImageLaw busy ∧ JoinLaw busy ∧ NoticeLaw busy) ∧
    (busy.applyArmed .s0 4).liveList .s0 = [0, 1] ∧ busy.placement 63 = none ∧
    (∃ p m, busy.placement 0 = some p ∧ p.screen = .s0 ∧ p.armed = true ∧ p.retireStaged = false ∧ p.committed = some m ∧
      m.source = p.staged.source) ∧
    (∃ p, busy.placement 1 = some p ∧ p.screen = .s0 ∧ p.armed = false) ∧ (∃ p, busy.placement 4 = some p ∧ p.screen ≠ .s0) ∧
    (let s := busy.modPlacement 0 fun p => { p with staged := { p.staged with source := .input .b } };
      (∃ p m, s.placement 0 = some p ∧ p.committed = some m ∧ m.source ≠ p.staged.source) ∧
      ((s.applyArmed .s0 4).placement 0).map (fun p => (p.latched, p.lastFrame)) = some (none, 0)) ∧
    (let s := after (.commit (some [1])) (ordering (.opened .s1 .ordinary false (solid 3 ⟨0, 0, 1920, 720⟩)));
      ([9, 4].map fun h => (s.placement h).map fun p => (p.screen, p.armed, p.retireStaged, p.committed.isNone)) =
        [some (.s1, true, false, true), some (.s1, true, true, false)] ∧
      (s.applyArmed .s1 7).record 4 = ⟨1, none⟩ ∧ ((s.applyArmed .s1 7).placement 9).map Placement.liveSince = some (some 7)) ∧
    busy.resetLow = false ∧ (busy.domain .front).nextStart = busy.timeBase :=
  ⟨by decide +kernel, ⟨busy_store_safe.1, busy_table_safe.2.1, busy_table_safe.1, busy_table_safe.2.2.2.2.1, busy_blocks_safe.2.2.2.2.2⟩,
    by decide +kernel, by decide +kernel, ⟨_, _, rfl, rfl, rfl, rfl, rfl, rfl⟩, ⟨_, rfl, rfl, rfl⟩, ⟨_, rfl, by decide +kernel⟩,
    ⟨⟨_, _, rfl, rfl, by decide +kernel⟩, by decide +kernel⟩,
    by decide +kernel, by decide +kernel, by decide +kernel⟩

/-- GenerationsAdvanceOnTheirEvents, the passenger choice: a pending choice that reaches the second entry of the list and is taken at the due frame
start of REAR, one past the list's end, and one on a screen without a selectable record; and a screen that is not rear. -/
theorem witness_GenerationsAdvanceOnTheirEvents_choice :
    let s := { busy with timeBase := 16667 }
    isRearScreen .s2 = true ∧ isRearScreen .s0 = false ∧ (s.link .s3).pendingChoice = none ∧ (s.link .s2).pendingChoice = some 1 ∧
    s.liveSelectable .s2 = some 4 ∧
    (∃ p, s.placement 4 = some p ∧ p.committed = some chosen ∧ (chosen.choices.getD [])[1]? = some .b ∧ chosen.source ≠ .input .b ∧
      p.latched = some ⟨.a, .k0⟩) ∧ NoticeLaw s ∧
    ((after (.domainFrameStart .rear) s).link .s2).pendingChoice = none ∧ (after (.domainFrameStart .rear) s).liveSelectable .s2 = some 4 ∧
    ((after (.domainFrameStart .rear) s).placement 4).bind (fun p => p.committed.map Image.source) = some (.input .b) ∧
    ((after (.domainFrameStart .rear) s).record 4).generation = 4 ∧
    (let u := s.modLink .s2 fun l => { l with pendingChoice := some 7 };
      (u.link .s2).pendingChoice = some 7 ∧ (chosen.choices.getD []).length ≤ 7 ∧ ((u.takeChoice .s2).link .s2).badChoices = 1) ∧
    (let u := s.modLink .s3 fun l => { l with pendingChoice := some 0 };
      u.liveSelectable .s3 = none ∧ ((u.takeChoice .s3).link .s3).badChoices = 1) :=
  ⟨rfl, rfl, by decide +kernel, by decide +kernel, by decide +kernel, ⟨_, rfl, rfl, rfl, by decide, rfl⟩,
    busy_blocks_safe.2.2.2.2.2, by decide +kernel, by decide +kernel, by decide +kernel, by decide +kernel,
    ⟨by decide +kernel, by decide, by decide +kernel⟩, ⟨by decide +kernel, by decide +kernel⟩⟩

/-- ViewChangesAreNoticed, the decision: the fit source of each input of the part at work, with the slot it gives; a record that is frozen, one on
SOLID, and one on an input whose latest frame it has drawn, whose latest frame is new to it, at and below its hold limit, under each policy. -/
theorem witness_ViewChangesAreNoticed_decision :
    let fit : InputId → Option SlotRef := fun i => match i with | .a => some ⟨.a, .k0⟩ | .b => some ⟨.b, .k0⟩ | _ => none
    (∀ i ∈ allInputs, ∀ j ∈ allInputs, ∀ k ∈ allSlots,
      (fit i = some ⟨j, k⟩ ↔ (busy.input i).monitor = .locked ∧ j = i ∧ (busy.slot ⟨j, k⟩).latest = true)) ∧
    (∃ p, busy.placement 0 = some p ∧ p.screen = .s0 ∧ p.committed = some piece ∧ piece.source = .input .a ∧ p.frozen = false ∧
      (busy.slot ⟨.a, .k0⟩).frameNumber = p.lastFrame) ∧
    (∃ p m, busy.placement 1 = some p ∧ p.committed = some m ∧ m.source = .solid) ∧
    (let starve (x : Policy) (p : Placement) : Placement := { p with committed := some { piece with policy := x, holdLimit := 1 } };
      [id, fun p => { p with lastFrame := 4, age := 255 }, fun p => { p with age := 255 }, starve .hold, starve .fill, starve .alternate,
        starve .hide, fun p => { p with frozen := true }, fun p => { p with frozen := true, latched := none }].map
        (fun f => (((busy.modPlacement 0 f).decideViews .s0).placement 0).map fun p => (p.view, p.latched, p.age, p.lastFrame)) =
        [some (some .showing, some ⟨.a, .k0⟩, 1, 5), some (some .showing, some ⟨.a, .k0⟩, 0, 5), some (some .showing, some ⟨.a, .k0⟩, 255, 5),
          some (some .holding, some ⟨.a, .k0⟩, 1, 5), some (some .filled, none, 1, 5), some (some .alternate, some ⟨.b, .k0⟩, 1, 5),
          some (some .hidden, none, 1, 5), some (some .frozen, some ⟨.a, .k0⟩, 0, 5), some (some .filled, none, 0, 5)]) ∧
    ((busy.decideViews .s0).record 4 = busy.record 4 ∧ (busy.decideViews .s2).record 2 = busy.record 2) :=
  ⟨by decide +kernel, ⟨_, rfl, rfl, rfl, rfl, rfl, by decide +kernel⟩, ⟨_, _, rfl, rfl, rfl⟩, by decide +kernel, by decide +kernel⟩

/-- SamplesStayInTheSource at an enlargement by two and a reduction by two: the line below, the line above and the column to the right void, each
with weight 0 or not, and four neighbours stored; and a pixel outside, under a HIDDEN view, keyed out, drawn from a void sample and from a
stored one. -/
theorem witness_SamplesStayInTheSource_mixes :
    let z (lines : List (Nat × List Colour)) : Slot := ⟨.ready, true, 1, 1, some (2, 2), lines⟩
    let below := z [(0, [⟨1, 2, 3⟩, ⟨4, 5, 6⟩])]
    let above := z [(1, [⟨1, 2, 3⟩, ⟨4, 5, 6⟩])]
    let whole := z [(0, [⟨0, 0, 0⟩, ⟨256, 0, 0⟩]), (1, [⟨0, 512, 0⟩, ⟨256, 512, 0⟩])]
    (sampleIndex (samplePosition 0 2 2) = 0 ∧ sampleWeight (samplePosition 0 2 2) = 0 ∧ sampleIndex (samplePosition 1 2 4) = 0 ∧
      sampleWeight (samplePosition 1 2 4) = 64) ∧
    (below.read 0 1 = none ∧ sampleSlot below 0 0 2 2 ⟨0, 0, 2, 2⟩ 0 0 = none ∧ sampleSlot below 0 0 2 2 ⟨0, 0, 4, 4⟩ 1 1 = none) ∧
    (above.read 0 0 = none ∧ sampleSlot above 0 0 2 2 ⟨0, 0, 1, 1⟩ 0 0 = none) ∧
    (whole.read 2 0 = none ∧ sampleSlot whole 1 0 2 2 ⟨0, 0, 4, 4⟩ 1 1 = none) ∧
    sampleSlot whole 0 0 2 2 ⟨0, 0, 4, 4⟩ 1 1 = some ⟨64, 128, 0⟩ ∧ sampleSlot whole 0 0 2 2 ⟨0, 0, 1, 1⟩ 0 0 = some ⟨128, 256, 0⟩ ∧
    (let draw (sampling : Sampling) (key : Option Key) : DrawParams := ⟨0, ⟨0, 0, 16, 16⟩, sampling, key, 256, .over, ⟨9, 9, 9⟩⟩
      let pixel (p : DrawParams) (x : Nat) := composedPixel busy ⟨1, 2, 3⟩ [p] x 0
      let slot := Sampling.slot ⟨.a, .k0⟩ 0 0 16 16
      let void := Sampling.slot ⟨.a, .k0⟩ 0 5 16 11
      pixel (draw .solid none) 16 = ⟨1, 2, 3⟩ ∧ pixel (draw .nothing none) 0 = ⟨1, 2, 3⟩ ∧
      pixel (draw slot (some ⟨.eq, .single, ⟨0, 200, 0⟩⟩)) 0 = ⟨1, 2, 3⟩ ∧ pixel (draw void none) 0 = ⟨9, 9, 9⟩ ∧
      pixel (draw slot (some ⟨.lt, .single, ⟨0, 200, 0⟩⟩)) 15 = ⟨100, 200, 300⟩) := by decide +kernel

/-- LinkFrameStartJudgesTheInterval in TRAINING and RECOVERING, where the third run in a row and the 32nd interval fall together and apart; in
RESETTING at counts 2 and 1; and in DOWN and HALTED. -/
theorem witness_LinkFrameStartJudgesTheInterval_others :
    let l := { LinkContext.reset with state := .recovering, windowCount := 31, trainedRun := 2 }
    let trained := { l with interval := ⟨true, true, false, none⟩ }
    (trained.state = .recovering ∧ trained.interval.trainedSeen = true ∧ 2 ≤ trained.trainedRun) ∧ (trained.frameStart 9).state = .up ∧
    ¬ (l.interval.trainedSeen = true ∧ 2 ≤ l.trainedRun) ∧ (l.frameStart 9).state = .halted ∧ (l.frameStart 9).windowCount = 32 ∧
    (let m := { trained with state := .training, trainedRun := 1, windowCount := 30 };
      ¬ (m.interval.trainedSeen = true ∧ 2 ≤ m.trainedRun) ∧ (m.frameStart 9).state = .training ∧ (m.frameStart 9).trainedRun = 2) ∧
    (let m := { l with state := .resetting, resetCount := some 2 }; (m.frameStart 9).state = .resetting ∧ (m.frameStart 9).resetCount = some 1) ∧
    (let m := { l with state := .resetting, resetCount := some 1 }; (m.frameStart 9).state = .training ∧ (m.frameStart 9).windowCount = 0) ∧
    (let m := { l with state := .halted }; (m.frameStart 9).windowCount = 31) ∧
    (let m := { LinkContext.reset with interval := ⟨true, true, false, some 65535⟩ };
      m.state = .down ∧ m.summary = ⟨false, some 65535⟩ ∧ (m.frameStart 9).interval = .empty) := by decide +kernel

end Sys2Proof.Tests
end

section
/-! SUPPORT. The end of an open frame: when R57 judges it good, what its publication does to the slots of its input (R78), and what FRAME_END
leaves of the state (R58, R79). -/

namespace Sys2Proof.Machine

/-- Losing the mark touches the latest slot alone, which becomes FREE without holders and keeps everything else with them (R78). -/
theorem Slot.unmark_eq (z : Slot) :
    z.unmark = if z.latest = true then (if z.holders = 0 then .empty else { z with latest := false }) else z := by
  simp [Slot.unmark, Slot.freeIfUnused]

/-- Lines received that rise below the height are all of the lines exactly when each line is among them (R57). -/
theorem lines_eq_range_iff {l : List Nat} {height : Nat} (hrising : l.Pairwise (· < ·)) (hbelow : ∀ n ∈ l, n < height) :
    l = List.range height ↔ ∀ n < height, n ∈ l := by
  constructor
  · rintro rfl n hn
    exact List.mem_range.2 hn
  · intro hall
    refine hrising.eq_of_mem_iff List.pairwise_lt_range fun n => ?_
    exact ⟨fun hn => List.mem_range.2 (hbelow n hn), fun hn => hall n (List.mem_range.1 hn)⟩

/-- R57 by its three conditions, for an open frame whose lines received rise below the height. -/
theorem frameIsGood_iff {height : Nat} {f : OpenFrame} (hrising : f.lines.Pairwise (· < ·)) (hbelow : ∀ n ∈ f.lines, n < height) :
    frameIsGood height f = true ↔ (∀ n < height, n ∈ f.lines) ∧ f.damage = false ∧ f.verdict ≠ .missed := by
  simp [frameIsGood, lines_eq_range_iff hrising hbelow, and_assoc]

/-- The slot handed to the store becomes READY and latest, every other slot loses the mark it may have, and with no slot to hand over none
changes (R78, R79). -/
theorem State.endFrame_get (s : State) (i : InputId) (f : OpenFrame) (good : Bool) (k : SlotIndex) :
    ((s.endFrame i f good).input i).slots.get k =
      if f.slot = none then (s.input i).slots.get k
      else if f.slot = some k then ((s.input i).slots.get k).unmark.finish
      else ((s.input i).slots.get k).unmark := by
  have hslots : ((s.judge i good).input i).slots = (s.input i).slots := by rw [State.judge_input]
  cases hf : f.slot with
  | none => simp [State.endFrame, hf, hslots]
  | some j =>
    by_cases hj : k = j
    · subst hj; simp [State.endFrame, hf, hslots]
    · simp [State.endFrame, hf, hslots, hj, Ne.symm hj]

/-- Beyond the judgement, the end of a frame writes the open frame and the slots of its input alone (R58). -/
theorem State.endFrame_input (s : State) (i : InputId) (f : OpenFrame) (good : Bool) :
    (s.endFrame i f good).input i =
      { (s.judge i good).input i with openFrame := none, slots := ((s.endFrame i f good).input i).slots } := by
  cases hf : f.slot with
  | none => simp [State.endFrame, hf]
  | some k => simp only [State.endFrame, hf, State.modInput_input, if_true]; rw [InputContext.publish_frame]

theorem State.endFrame_input_ne (s : State) {i j : InputId} (f : OpenFrame) (good : Bool) (h : j ≠ i) :
    (s.endFrame i f good).input j = s.input j := by
  simp [State.endFrame, h]

/-- FRAME_END with a frame open ends it with its judgement by R57 (R58). -/
theorem exec_frameEnd_open {s : State} {i : InputId} {f : OpenFrame} (hrun : s.resetLow = false) (hf : (s.input i).openFrame = some f) :
    exec (.frameEnd i) s = .next (s.endFrame i f (frameIsGood (s.input i).config.height f)) := by
  change execFrameEnd i s = _
  simp [execFrameEnd, whileRunning_eq, hrun, hf]

end Sys2Proof.Machine

namespace Sys2Proof.Safety

open Sys2Proof.Machine

/-- The lines received of an open frame rise below the configured height (R52). -/
theorem LineLaw.openFrame_lines {s : State} {i : InputId} {f : OpenFrame} (h : LineLaw s) (hf : (s.input i).openFrame = some f) :
    f.lines.Pairwise (· < ·) ∧ ∀ n ∈ f.lines, n < (s.input i).config.height := by
  obtain ⟨hopen, -⟩ := h i (mem_allInputs i)
  simp only [openFrameLawful, hf, Bool.and_eq_true, decide_eq_true_eq, List.all_eq_true] at hopen
  obtain ⟨⟨hrising, hbelow⟩, -⟩ := hopen
  exact ⟨hrising, hbelow⟩

/-- The open frame's slot is FILLING, and so not latest (R52, R74). -/
theorem SlotLaw.openFrame_slot {s : State} {i : InputId} {f : OpenFrame} {k : SlotIndex} (h : SlotLaw s)
    (hf : (s.input i).openFrame = some f) (hk : f.slot = some k) :
    ((s.input i).slots.get k).state = .filling ∧ ((s.input i).slots.get k).latest = false := by
  have hlaw := h i (mem_allInputs i)
  simp only [slotsLawful, Bool.and_eq_true, List.all_eq_true, decide_eq_true_eq] at hlaw
  obtain ⟨⟨hcombination, -⟩, hfilling⟩ := hlaw
  have hstate : ((s.input i).slots.get k).state = .filling := by
    simpa [hf, hk] using hfilling k (mem_allSlots k)
  refine ⟨hstate, ?_⟩
  have hc := hcombination k (mem_allSlots k)
  simp only [slotCombination, hstate, Bool.and_eq_true, Bool.not_eq_true'] at hc
  exact hc.1

/-- Settles O31: the end of the open frame with its judgement by R57, whose slot is not yet latest. -/
theorem frameEndJudgesAndPublishes : Obligations.FrameEndJudgesAndPublishes := by
  intro s i f hrun hf hline hslot
  obtain ⟨hrising, hbelow⟩ := hline.openFrame_lines hf
  refine ⟨_, frameIsGood (s.input i).config.height f, exec_frameEnd_open hrun hf, frameIsGood_iff hrising hbelow,
    State.endFrame_input s i f _, fun k => ?_, fun j hj => State.endFrame_input_ne s f _ hj, State.endFrame_frame s i f _⟩
  rw [State.endFrame_get]
  by_cases hk : f.slot = some k
  · obtain ⟨-, hlatest⟩ := hslot.openFrame_slot hf hk
    simp [hk, Slot.unmark_eq, hlatest, Slot.finish]
  · simp only [hk, if_false, Slot.unmark_eq]

end Sys2Proof.Safety
end

section
/-! SUPPORT. The checks and the effect of SET_DOMAIN: which mode its bytes ask for (checks 2 and 4 to 6 of R99), what a command that passes
stores, and when it is refused. -/

namespace Sys2Proof.Machine

/-- FREE is asked for by mode byte 0 without lock fields (R99, checks 2 and 6). -/
theorem State.requestedMode_eq_free_iff (s : State) (m : Byte) (lock : RawLock) :
    s.requestedMode m lock = some .free ↔ m = 0 ∧ lock = .absent := by
  unfold State.requestedMode
  split_ifs with hfree hlock
  · cases lock <;> simp [hfree]
  · refine iff_of_false ?_ fun ⟨hm, _⟩ => hfree hm
    cases lock <;> simp [Option.bind_eq_some_iff]
  · exact iff_of_false (by simp) fun ⟨hm, _⟩ => hfree hm

/-- LOCK is asked for by mode byte 1 with the lock fields present, a lock input that exists and a lock delay below its P less its tolerance
(R99, checks 2, 4 and 5). -/
theorem State.requestedMode_eq_lock_iff (s : State) (m : Byte) (lock : RawLock) (i : InputId) (n : Nat) :
    s.requestedMode m lock = some (.lock i n) ↔
      ∃ x delay, m = 1 ∧ lock = .present x delay ∧ inputOf x = some i ∧
        delay.toNat + (s.input i).config.tolerance < (s.input i).config.period ∧ delay.toNat = n := by
  unfold State.requestedMode
  split_ifs with hfree hlock
  · cases lock <;> simp [hfree]
  · cases lock with
    | absent => simp
    | unknown => simp
    | present x delay => simp [hlock, Option.bind_eq_some_iff]
  · exact iff_of_false (by simp) fun ⟨_, _, hm, _⟩ => hlock hm

/-- No mode is asked for when neither the bytes of FREE nor those of a LOCK within its bounds are given (R99). -/
theorem State.requestedMode_eq_none {s : State} {m : Byte} {lock : RawLock} (hfree : ¬ (m = 0 ∧ lock = .absent))
    (hlock : ∀ x delay i, m = 1 → lock = .present x delay → inputOf x = some i →
      (s.input i).config.period ≤ delay.toNat + (s.input i).config.tolerance) : s.requestedMode m lock = none := by
  cases h : s.requestedMode m lock with
  | none => rfl
  | some mode =>
    cases mode with
    | free => exact absurd ((s.requestedMode_eq_free_iff m lock).1 h) hfree
    | lock i n =>
      obtain ⟨x, delay, hm, hpresent, hi, hbelow, -⟩ := (s.requestedMode_eq_lock_iff m lock i n).1 h
      exact absurd (hlock x delay i hm hpresent hi) (Nat.not_le.2 hbelow)

/-- A SET_DOMAIN that passes its checks writes the pending settings of its domain and answers OK (R99). -/
theorem exec_setDomain_passed {s : State} {b m : Byte} {p : Half} {lock : RawLock} {d : Domain} {t : DomainMode}
    (hrun : s.resetLow = false) (hd : domainOf b = some d) (ht : s.requestedMode m lock = some t)
    (hp : 8333 ≤ p.toNat ∧ p.toNat ≤ 40000) :
    exec (.setDomain b m p lock) s =
      .next ((s.modDomain d fun c => { c with pendingSettings := some ⟨t, p.toNat⟩ }).respond .ok []) := by
  change execSetDomain b m p lock s = _
  simp [execSetDomain, whileRunning_eq, hrun, hd, ht, hp]

/-- A SET_DOMAIN that fails a check changes nothing and answers BAD_FIELD (R99, R170). -/
theorem exec_setDomain_refused {s : State} {b m : Byte} {p : Half} {lock : RawLock} (hrun : s.resetLow = false)
    (hfail : domainOf b = none ∨ s.requestedMode m lock = none ∨ ¬ (8333 ≤ p.toNat ∧ p.toNat ≤ 40000)) :
    exec (.setDomain b m p lock) s = .next (s.respond .badField []) := by
  change execSetDomain b m p lock s = _
  simp only [execSetDomain, whileRunning_eq, hrun, State.refuse]
  obtain hd | ht | hp := hfail
  · simp [hd]
  · simp [ht]
  · simp only [hp, if_false]
    cases domainOf b <;> cases s.requestedMode m lock <;> rfl

end Sys2Proof.Machine

namespace Sys2Proof.Safety

open Sys2Proof.Machine

/-- Settles O22: the mode the statement names is the one the model asks for, so the checks pass or fail together. -/
theorem setDomainWaitsAsPending : Obligations.SetDomainWaitsAsPending := by
  intro s b m p lock hrun mode hmode
  have hrequest : s.requestedMode m lock = mode := by
    obtain ⟨hm, habsent, rfl⟩ | ⟨x, delay, i, hm, hpresent, hi, hbelow, rfl⟩ | ⟨hfree, hlock, rfl⟩ := hmode
    · exact (s.requestedMode_eq_free_iff m lock).2 ⟨hm, habsent⟩
    · exact (s.requestedMode_eq_lock_iff m lock i delay.toNat).2 ⟨x, delay, hm, hpresent, hi, hbelow, rfl⟩
    · exact State.requestedMode_eq_none hfree hlock
  refine ⟨fun d t hd ht hlow hhigh => ?_, fun hfail => ?_⟩
  · exact exec_setDomain_passed hrun hd (hrequest.trans ht) ⟨hlow, hhigh⟩
  · exact exec_setDomain_refused hrun (hrequest ▸ hfail)

end Sys2Proof.Safety
end

section
/-! SUPPORT. The arithmetic of one channel: what input expansion, the two blends, the screen gain and the output depth give, and between which
bounds each stays (R111, R121 to R124). -/

namespace Sys2Proof.Machine

/-- At depth 10 expansion keeps the value (R111). -/
theorem expandChannel_ten (c : BitVec 10) : expandChannel 10 c = c.toNat := rfl

/-- At depth 8 expansion is R111's formula on the value itself, where the value has eight bits. -/
theorem expandChannel_eight {c : BitVec 10} (hc : c.toNat < 256) : expandChannel 8 c = c.toNat * 4 + c.toNat / 64 := by
  simp [expandChannel, Nat.mod_eq_of_lt hc]

/-- R121's formula. -/
theorem blendChannel_over (a s d : Nat) : blendChannel .over a s d = (s * a + d * (256 - a) + 128) / 256 := rfl

/-- R122's formula. -/
theorem blendChannel_add (a s d : Nat) : blendChannel .add a s d = min 1023 (d + (s * a + 128) / 256) := rfl

/-- The two weights of OVER make up 256, so a value drawn over itself counts 256 times. -/
theorem weights_sum {a : Nat} (ha : a ≤ 256) (m : Nat) : m * a + m * (256 - a) = m * 256 := by
  rw [← Nat.mul_add, Nat.add_sub_cancel' ha]

/-- OVER stays at or above every lower bound of its two values (R121). -/
theorem le_blendChannel_over {m a s d : Nat} (ha : a ≤ 256) (hs : m ≤ s) (hd : m ≤ d) : m ≤ blendChannel .over a s d := by
  have hweights := weights_sum ha m
  have hdrawn : m * a ≤ s * a := Nat.mul_le_mul_right a hs
  have hdestination : m * (256 - a) ≤ d * (256 - a) := Nat.mul_le_mul_right _ hd
  rw [blendChannel_over]
  omega

/-- OVER stays at or below every upper bound of its two values (R121). -/
theorem blendChannel_over_le {m a s d : Nat} (ha : a ≤ 256) (hs : s ≤ m) (hd : d ≤ m) : blendChannel .over a s d ≤ m := by
  have hweights := weights_sum ha m
  have hdrawn : s * a ≤ m * a := Nat.mul_le_mul_right a hs
  have hdestination : d * (256 - a) ≤ m * (256 - a) := Nat.mul_le_mul_right _ hd
  rw [blendChannel_over]
  omega

/-- An opaque OVER covers the destination (R121). -/
theorem blendChannel_over_opaque (s d : Nat) : blendChannel .over 256 s d = s := by
  rw [blendChannel_over]
  omega

/-- OVER at opacity 0 leaves the destination (R121). -/
theorem blendChannel_over_zero (s d : Nat) : blendChannel .over 0 s d = d := by
  rw [blendChannel_over]
  omega

/-- ADD never lowers a channel that is in range (R122). -/
theorem le_blendChannel_add {d : Nat} (a s : Nat) (hd : d ≤ 1023) : d ≤ blendChannel .add a s d :=
  le_min hd (Nat.le_add_right _ _)

/-- ADD is held at 1023 (R122). -/
theorem blendChannel_add_le (a s d : Nat) : blendChannel .add a s d ≤ 1023 := min_le_left _ _

/-- ADD at opacity 0 adds nothing (R122). -/
theorem blendChannel_add_zero {d : Nat} (s : Nat) (hd : d ≤ 1023) : blendChannel .add 0 s d = d := by
  simpa [blendChannel_add] using hd

/-- ADD at opacity 256 adds the drawn value itself (R122). -/
theorem blendChannel_add_opaque (s d : Nat) : blendChannel .add 256 s d = min 1023 (d + s) := by
  have hdrawn : (s * 256 + 128) / 256 = s := by omega
  rw [blendChannel_add, hdrawn]

/-- R123's formula. -/
theorem gainChannel_eq (g c : Nat) : gainChannel g c = min 1023 ((c * g + 512) / 1024) := rfl

/-- Unity gain changes no value in range (R123). -/
theorem gainChannel_unity {c : Nat} (hc : c ≤ 1023) : gainChannel 1024 c = c := by
  rw [gainChannel_eq]
  omega

/-- Gain 0 is black (R123). -/
theorem gainChannel_zero (c : Nat) : gainChannel 0 c = 0 := by
  rw [gainChannel_eq, Nat.mul_zero]
  rfl

/-- A greater gain never gives a smaller value (R123). -/
theorem gainChannel_mono {g g' : Nat} (c : Nat) (hg : g ≤ g') : gainChannel g c ≤ gainChannel g' c :=
  min_le_min_left _ (Nat.div_le_div_right (Nat.add_le_add_right (Nat.mul_le_mul_left c hg) 512))

/-- Depth 10 keeps the value (R124). -/
theorem depthChannel_ten (c : Nat) : depthChannel 10 c = c := rfl

/-- R124's formula for depth 8. -/
theorem depthChannel_eight (c : Nat) : depthChannel 8 c = min 255 ((c + 2) / 4) := rfl

end Sys2Proof.Machine

namespace Sys2Proof.Safety

open Sys2Proof.Machine

/-- Settles O41: each formula with its bounds; gain is monotone, so its two bounds come from unity gain. -/
theorem channelArithmeticIsExact : Obligations.ChannelArithmeticIsExact := by
  refine ⟨fun c => ⟨expandChannel_ten c, fun hc => ?_⟩, fun a s d ha _ hd => ?_, fun g c hc => ?_⟩
  · have hexpanded := expandChannel_eight hc
    exact ⟨hexpanded, by omega⟩
  · exact ⟨blendChannel_over a s d, le_blendChannel_over ha (min_le_left s d) (min_le_right s d),
      blendChannel_over_le ha (le_max_left s d) (le_max_right s d), blendChannel_over_opaque s d, blendChannel_over_zero s d,
      blendChannel_add a s d, le_blendChannel_add a s hd, blendChannel_add_le a s d, blendChannel_add_zero s hd,
      blendChannel_add_opaque s d⟩
  · have hunity := gainChannel_unity hc
    exact ⟨gainChannel_eq g c, hunity, gainChannel_zero c, fun hg => (gainChannel_mono c hg).trans_eq hunity,
      fun hg => hunity.symm.trans_le (gainChannel_mono c hg), depthChannel_ten c, depthChannel_eight c, min_le_left _ _⟩

end Sys2Proof.Safety
end

section
/-! SUPPORT. The key: which predicates are opposites, and what each span reads of a sample and of a void one (R117, R118). -/

namespace Sys2Proof.Machine

/-- The last four predicates are the opposites of the first four for a stored sample (R117). -/
theorem Predicate.holds_opposite (s k : Nat) :
    Predicate.neq.holds s k = !Predicate.eq.holds s k ∧ Predicate.nlt.holds s k = !Predicate.lt.holds s k ∧
      Predicate.nle.holds s k = !Predicate.le.holds s k ∧ Predicate.ord.holds s k = !Predicate.unord.holds s k := by
  simp only [Predicate.holds, ← decide_not, Nat.not_lt, Nat.not_le, ne_eq, Bool.not_false, and_self]

/-- The last four predicates are the opposites of the first four for a void sample (R117). -/
theorem Predicate.holdsVoid_opposite :
    Predicate.neq.holdsVoid = !Predicate.eq.holdsVoid ∧ Predicate.nlt.holdsVoid = !Predicate.lt.holdsVoid ∧
      Predicate.nle.holdsVoid = !Predicate.le.holdsVoid ∧ Predicate.ord.holdsVoid = !Predicate.unord.holdsVoid := ⟨rfl, rfl, rfl, rfl⟩

/-- The predicates that key a void sample out: UNORD and the three negated comparisons (R117). -/
theorem Predicate.holdsVoid_iff (p : Predicate) : p.holdsVoid = true ↔ p ∈ [Predicate.unord, .neq, .nlt, .nle] := by
  cases p <;> decide

/-- A void sample is judged by the predicate alone, whatever the span (R118). -/
theorem Key.keysOut_void (k : Key) : k.keysOut none = k.predicate.holdsVoid := rfl

/-- SINGLE judges the green channel (R118). -/
theorem Key.keysOut_single {k : Key} (c : Colour) (hk : k.span = .single) :
    k.keysOut (some c) = k.predicate.holds c.g k.colour.g := by
  simp [Key.keysOut, hk]

/-- PACKED keys out where the predicate holds in all three channels (R118). -/
theorem Key.keysOut_packed {k : Key} (c : Colour) (hk : k.span = .packed) :
    k.keysOut (some c) = true ↔
      k.predicate.holds c.r k.colour.r = true ∧ k.predicate.holds c.g k.colour.g = true ∧ k.predicate.holds c.b k.colour.b = true := by
  simp [Key.keysOut, hk, and_assoc]

/-- A predicate with one answer for all values gives that answer for the whole sample, under either span (R118). -/
theorem Key.keysOut_constant {k : Key} {answer : Bool} (c : Colour) (hk : ∀ s t, k.predicate.holds s t = answer) :
    k.keysOut (some c) = answer := by
  cases hspan : k.span with
  | single => rw [Key.keysOut_single c hspan, hk]
  | packed => simp [Key.keysOut, hspan, hk]

end Sys2Proof.Machine

namespace Sys2Proof.Safety

open Sys2Proof.Machine

/-- Settles O42: the four pairs one by one, then the key by its span and by its predicate. -/
theorem keyPredicatesAreOpposites : Obligations.KeyPredicatesAreOpposites := by
  refine ⟨fun x hx s k => ?_, fun s k => ?_, fun k c => ⟨Key.keysOut_single c, Key.keysOut_packed c, fun hk => ?_, fun hk => ?_, ?_⟩⟩
  · obtain ⟨hneq, hnlt, hnle, hord⟩ := Predicate.holds_opposite s k
    obtain ⟨vneq, vnlt, vnle, vord⟩ := Predicate.holdsVoid_opposite
    simp only [List.mem_cons, List.not_mem_nil, or_false] at hx
    obtain rfl | rfl | rfl | rfl := hx
    · exact ⟨hneq, vneq⟩
    · exact ⟨hnlt, vnlt⟩
    · exact ⟨hnle, vnle⟩
    · exact ⟨hord, vord⟩
  · simp only [Predicate.holds, decide_eq_true_eq, and_self]
  · exact ⟨by rw [Key.keysOut_void, hk]; rfl, Key.keysOut_constant c fun _ _ => by rw [hk]; rfl⟩
  · exact ⟨by rw [Key.keysOut_void, hk]; rfl, Key.keysOut_constant c fun _ _ => by rw [hk]; rfl⟩
  · rw [Key.keysOut_void]
    exact k.predicate.holdsVoid_iff

end Sys2Proof.Safety
end


section
/-! SUPPORT. What a step can do: one inversion for every row of the opcode table, which names the effect of the row with the checks it has
passed, and one for a step. Every statement about any command or any step is a case analysis of these. -/

namespace Sys2Proof.Machine

/-- The codes a command taken can have: NOTHING and BAD_COMMAND are not among them (section 9.4). -/
abbrev ResultCode.isTaken (c : ResultCode) : Prop := c ≠ .nothing ∧ c ≠ .badCommand

/-- The effects a row can have: none, a response alone, or one of the effects that write a block, each with the checks its rule makes
before it. -/
inductive Effect (s : State) : Instr → State → Prop
  | unchanged (c : Instr) (hc : Safety.isCommand c = true → s.resetLow = true) : Effect s c s
  | answered (c : Instr) (code : ResultCode) (body : List Byte) (hcode : Safety.isCommand c = true → code.isTaken) :
      Effect s c (s.respond code body)
  | opened {b0 b1 b2 : Byte} {raw : Option RawImage} {sc : Screen} {cls : PlacementClass} {sel : Bool} {m : Image} {h : Handle}
      {body : List Byte} (himage : raw.bind imageOf = some m) (hcheck : s.checkImage sc cls sel m = none) (hfree : s.lowestFree = some h)
      (hcount : s.placementCount sc < 16) :
      Effect s (.openPlacement b0 b1 b2 raw) (((s.advanceGeneration h).setBody h (some (.opened sc cls sel m))).respond .ok body)
  | amended {b g u : Byte} {es : List RawField} {h : Handle} {p : Placement} {m : Image} {body : List Byte} (hh : handleOf b = some h)
      (hp : s.placement h = some p) (harmed : p.armed = false) (hm : s.amendedImage p es = .ok m) :
      Effect s (.amend b g u (some es)) (((s.advanceGeneration h).modPlacement h fun p => { p with staged := m }).respond .ok body)
  | freed {b g u : Byte} {h : Handle} {p : Placement} {body : List Byte} (hh : handleOf b = some h) (hp : s.placement h = some p)
      (harmed : p.armed = false) (hnew : p.committed = none) : Effect s (.retire b g u) ((s.freeRecord h).respond .ok body)
  | retired {b g u : Byte} {h : Handle} {p : Placement} {body : List Byte} (hh : handleOf b = some h) (hp : s.placement h = some p)
      (harmed : p.armed = false) (hlive : p.committed ≠ none) :
      Effect s (.retire b g u) (((s.advanceGeneration h).modPlacement h fun p => { p with retireStaged := true }).respond .ok body)
  | armed {l : Option (List Byte)} {named : List Screen} {body : List Byte} (hpass : ∀ sc ∈ named, s.admissionFault sc = none) :
      Effect s (.commit l) ((s.arm named).respond .ok body)
  | freezeRequested {c : Instr} {h : Handle} {p : Placement} {r : FreezeRequest} {body : List Byte}
      (hc : ∃ b, c = .freeze b ∨ c = .thaw b) (hp : s.placement h = some p) (hcls : p.cls ≠ .safety) (hlive : p.committed ≠ none) :
      Effect s c ((s.modPlacement h fun p => { p with freezeRequest := some r }).respond .ok body)
  | sourceConfigured {b : Byte} {w h : Half} {d : Byte} {p t : Half} {n m : Byte} {i : InputId} {c : SourceConfig}
      (hi : inputOf b = some i) (hrange : firstFalse c.inRange = none) (hlock : s.lockFault i c = none)
      (hfit : s.geometryFault i c = none) :
      Effect s (.setSource b w h d p t n m) (((s.modInput i fun x => { x with config := c }).restartSource i).respond .ok [])
  | sourceRestarted {b : Byte} {i : InputId} (hi : inputOf b = some i) : Effect s (.resetSource b) ((s.restartSource i).respond .ok [])
  | screenConfigured {b : Byte} {w h : Half} {d e : Byte} {sc : Screen} {c : ScreenConfig} (hsc : screenOf b = some sc)
      (hdown : (s.link sc).state = .down) (hcount : s.placementCount sc = 0) :
      Effect s (.setScreen b w h d e) ((s.modLink sc fun l => { l with config := c }).respond .ok [])
  | toneStored {b : Byte} {c : RawColour} {g : Half} {sc : Screen} {body : List Byte} :
      Effect s (.setScreenTone b c g) ((s.modLink sc fun l => { l with tone := ⟨colourOf c, min 2047 g.toNat⟩ }).respond .ok body)
  | linkEnabled {b : Byte} {sc : Screen} (hsc : screenOf b = some sc) (hstate : (s.link sc).state = .down) :
      Effect s (.enableLink b) ((s.changeLink sc LinkContext.toTraining).respond .ok [])
  | linkDisabled {b : Byte} {sc : Screen} (hsc : screenOf b = some sc) (hstate : (s.link sc).state ≠ .down) :
      Effect s (.disableLink b) ((s.changeLink sc LinkContext.toDown).respond .ok [])
  | linkReset {b : Byte} {sc : Screen} (hsc : screenOf b = some sc) (hdown : (s.link sc).state ≠ .down)
      (hresetting : (s.link sc).state ≠ .resetting) : Effect s (.resetLink b) ((s.changeLink sc LinkContext.toResetting).respond .ok [])
  | resetRenewed {b : Byte} {sc : Screen} (hsc : screenOf b = some sc) (hstate : (s.link sc).state = .resetting) :
      Effect s (.resetLink b) ((s.modLink sc fun l => { l with resetCount := some 2 }).respond .ok [])
  | domainSet {b m : Byte} {p : Half} {lock : RawLock} {d : Domain} {t : DomainMode} (ht : s.requestedMode m lock = some t) :
      Effect s (.setDomain b m p lock) ((s.modDomain d fun c => { c with pendingSettings := some ⟨t, p.toNat⟩ }).respond .ok [])
  | noticeTaken {e : NoticeEntry} {rest : List NoticeEntry} {body : List Byte} (he : s.notices.entries = e :: rest) :
      Effect s .takeNotice (({ s with notices := { s.notices with entries := rest } } : State).respond .ok body)
  | masked {l : Option (List (Byte × Byte))} {ps : List (NoticeKind × Bool)} {body : List Byte} :
      Effect s (.maskNotices l) (({ s with notices := ps.foldl NoticeUnit.applyMask s.notices } : State).respond .ok body)
  | fetched {n : Nat} : Effect s (.fetchTransaction n) { s with port := s.port.fetch n }
  | frameStarted {i : InputId} {tag : Half} :
      Effect s (.frameStart i tag) (allDomains.foldl (State.reportStart i) (((s.endEarly i).openInput i tag).firstFrame i))
  | lineTaken {i : InputId} {n : Half} {field : PixelField} :
      Effect s (.line i n field) (s.modInput i fun c => c.takeLine n.toNat field)
  | frameEnded {i : InputId} {f : OpenFrame} (hf : (s.input i).openFrame = some f) :
      Effect s (.frameEnd i) (s.endFrame i f (frameIsGood (s.input i).config.height f))
  | expired {i : InputId} (hdue : (s.input i).timer = some s.timeBase) : Effect s (.missingFrameExpiry i) (s.expire i)
  | domainStarted {c : Instr} {d : Domain} (hc : Safety.isFrameStart c = true) (hrun : s.resetLow = false)
      (hdue : (s.domain d).nextStart = s.timeBase) (hd : ∀ e, c = .domainFrameStart e → e = d) : Effect s c (s.domainStart d)
  | lineHanded {sc : Screen} {m : Composition} (hm : (s.composer sc).composition = some m) :
      Effect s (.lineHandover sc) ((s.modLink sc fun l => l.takeLine m (composeLine s (s.composer sc) m)).modComposer sc fun k =>
        { k with composition := m.advance })
  | returnTaken {sc : Screen} {sound : Bool} {bytes : List Byte} {r : StatusReturn} (hr : decodeReturn sound bytes = some r)
      (hstate : (s.link sc).state.takesReturns = true) :
      Effect s (.statusReturn sc sound bytes) (s.changeLink sc (LinkContext.statusReturn (isRearScreen sc) r))
  | resetAsserted (hrun : s.resetLow = false) : Effect s .resetnAssert s.assertReset
  | resetReleased : Effect s .resetnRelease { State.reset with
      port := { Port.reset with csLow := s.port.csLow }, pending := s.pending, choiceCount := s.choiceCount }

/-- The effect of a row is its own while RESETn is high, and none while it is held low (R184). -/
theorem Effect.of_whileRunning {s t : State} {c : Instr} {f : State → State} (h : whileRunning s f = .next t)
    (hf : s.resetLow = false → Effect s c (f s)) : Effect s c t := by
  rw [whileRunning_eq] at h
  obtain rfl := Host.Outcome.next.inj h
  cases hr : s.resetLow
  · exact hf hr
  · exact .unchanged c fun _ => hr

/-- A refusal is a response alone (R170). -/
theorem Effect.refuse (s : State) (c : Instr) {code : ResultCode} (hcode : code.isTaken) : Effect s c (s.refuse code) :=
  .answered c code [] fun _ => hcode

/-- The code of an image that fails is that of one of the four steps (R13). -/
theorem State.checkImage_isTaken {s : State} {sc : Screen} {cls : PlacementClass} {sel : Bool} {m : Image} {code : ResultCode}
    (h : s.checkImage sc cls sel m = some code) : code.isTaken := by
  unfold State.checkImage imageFault at h
  split_ifs at h <;> (obtain rfl := Option.some.inj h; decide)

theorem recordFault_isTaken {r : Record} {g : BitVec 8} {u : Bool} {code : ResultCode} (h : recordFault r g u = some code) : code.isTaken := by
  unfold recordFault at h
  split at h
  · obtain rfl := Option.some.inj h; decide
  · split_ifs at h <;> (obtain rfl := Option.some.inj h; decide)

theorem State.amendedImage_isTaken {s : State} {p : Placement} {es : List RawField} {code : ResultCode}
    (h : s.amendedImage p es = .error code) : code.isTaken := by
  unfold State.amendedImage at h
  split_ifs at h
  · obtain rfl := Except.error.inj h; decide
  · obtain rfl := Except.error.inj h; decide
  · split at h
    · obtain rfl := Except.error.inj h; decide
    · split at h
      · rename_i hcheck
        obtain rfl := Except.error.inj h
        exact State.checkImage_isTaken hcheck
      · cases h

theorem State.admissionFault_isTaken {s : State} {sc : Screen} {code : ResultCode} {body : List Byte}
    (h : s.admissionFault sc = some (code, body)) : code.isTaken := by
  unfold State.admissionFault at h
  dsimp only at h
  split at h
  · obtain ⟨rfl, -⟩ := Prod.mk.inj (Option.some.inj h); decide
  · split at h
    · obtain ⟨rfl, -⟩ := Prod.mk.inj (Option.some.inj h); decide
    · split at h
      · obtain ⟨rfl, -⟩ := Prod.mk.inj (Option.some.inj h); decide
      · cases h

theorem State.openImage_effect (s : State) {b0 b1 b2 : Byte} {raw : Option RawImage} {sc : Screen} {cls : PlacementClass} {sel : Bool}
    {m : Image} (himage : raw.bind imageOf = some m) : Effect s (.openPlacement b0 b1 b2 raw) (s.openImage sc cls sel m) := by
  unfold State.openImage
  split
  · rename_i hcode
    exact .refuse _ _ (State.checkImage_isTaken hcode)
  · rename_i hcheck
    split
    · exact .refuse _ _ (by decide)
    · rename_i h hfree
      split
      · exact .refuse _ _ (by decide)
      · rename_i hcount
        exact .opened himage hcheck hfree (Nat.lt_of_not_le hcount)

/-- A record that passes the checks of AMEND and RETIRE is not armed (R19, R21). -/
theorem recordFault_eq_none {r : Record} {g : BitVec 8} {u : Bool} {p : Placement} (h : recordFault r g u = none) (hp : r.body = some p) :
    p.armed = false ∧ (u = true ∨ g = r.generation) ∧ p.retireStaged = false := by
  simp only [recordFault, hp] at h
  split_ifs at h with harmed hstale hretired
  exact ⟨by simpa using harmed, by simpa [or_iff_not_imp_left] using hstale, by simpa using hretired⟩

theorem State.amendRecord_effect (s : State) {b g u : Byte} {unc : Bool} {es : List RawField} {h : Handle} (hh : handleOf b = some h) :
    Effect s (.amend b g u (some es)) (s.amendRecord h g unc es) := by
  unfold State.amendRecord
  split
  · rename_i hcode
    exact .refuse _ _ (recordFault_isTaken hcode)
  · exact .refuse _ _ (by decide)
  · rename_i p hfault hp
    split
    · rename_i hcode
      exact .refuse _ _ (State.amendedImage_isTaken hcode)
    · rename_i m hm
      exact .amended hh hp (recordFault_eq_none hfault hp).1 hm

theorem State.retireRecord_effect (s : State) {b g u : Byte} {unc : Bool} {h : Handle} (hh : handleOf b = some h) :
    Effect s (.retire b g u) (s.retireRecord h g unc) := by
  unfold State.retireRecord
  split
  · rename_i hcode
    exact .refuse _ _ (recordFault_isTaken hcode)
  · exact .refuse _ _ (by decide)
  · rename_i p hfault hp
    have harmed := (recordFault_eq_none hfault hp).1
    dsimp only
    split
    · rename_i hlive
      exact .retired hh hp harmed (Option.isSome_iff_ne_none.1 hlive)
    · rename_i hnew
      exact .freed hh hp harmed (by simpa [Placement.isLive] using hnew)

theorem State.requestFreeze_effect (s : State) {c : Instr} {b : Byte} (r : FreezeRequest) (hc : c = .freeze b ∨ c = .thaw b) :
    Effect s c (s.requestFreeze b r) := by
  unfold State.requestFreeze
  split
  · exact .refuse _ _ (by decide)
  · split
    · exact .refuse _ _ (by decide)
    · rename_i p hp
      split_ifs with hcls hlive
      · exact .refuse _ _ (by decide)
      · exact .refuse _ _ (by decide)
      · exact .freezeRequested ⟨b, hc⟩ hp hcls (by simpa [Placement.isLive, Option.isSome_iff_ne_none] using hlive)

theorem State.commitScreens_effect (s : State) (l : Option (List Byte)) (named : List Screen) :
    Effect s (.commit l) (s.commitScreens named) := by
  unfold State.commitScreens
  split
  · rename_i hfault
    obtain ⟨sc, -, hcode⟩ := List.exists_of_findSome?_eq_some hfault
    exact .answered _ _ _ fun _ => State.admissionFault_isTaken hcode
  · rename_i hpass
    exact .armed (List.findSome?_eq_none_iff.1 hpass)

theorem State.configureSource_effect (s : State) {b : Byte} {w h : Half} {d : Byte} {p t : Half} {n m : Byte} {i : InputId}
    (c : SourceConfig) (hi : inputOf b = some i) : Effect s (.setSource b w h d p t n m) (s.configureSource i c) := by
  unfold State.configureSource
  split
  · exact .answered _ _ _ fun _ => by decide
  · rename_i hrange
    split
    · exact .answered _ _ _ fun _ => by decide
    · rename_i hlock
      split
      · exact .answered _ _ _ fun _ => by decide
      · rename_i hfit
        exact .sourceConfigured hi hrange hlock hfit

/-- A command on a screen acts on the screen its byte names and is refused otherwise (section 8.5). -/
theorem Effect.of_onScreenNamed {s t : State} {c : Instr} {b : Byte} {f : Screen → State → State} (h : onScreenNamed b f s = .next t)
    (hf : ∀ sc, screenOf b = some sc → Effect s c (f sc s)) : Effect s c t := by
  refine .of_whileRunning h fun _ => ?_
  split
  · rename_i sc hsc
    exact hf sc hsc
  · exact .refuse _ _ (by decide)

/-- Whatever a row does is one of the effects. -/
theorem exec_effect {c : Instr} {s t : State} (h : exec c s = .next t) : Effect s c t := by
  cases c with
  | openPlacement b0 b1 b2 raw =>
    unfold exec execOpenPlacement at h
    refine .of_whileRunning h fun _ => ?_
    split
    · rename_i himage
      exact s.openImage_effect himage
    · exact .refuse _ _ (by decide)
  | amend b g u es =>
    unfold exec execAmend at h
    refine .of_whileRunning h fun _ => ?_
    split
    · rename_i hh _
      exact s.amendRecord_effect hh
    · exact .refuse _ _ (by decide)
  | retire b g u =>
    unfold exec execRetire at h
    refine .of_whileRunning h fun _ => ?_
    split
    · rename_i hh _
      exact s.retireRecord_effect hh
    · exact .refuse _ _ (by decide)
  | commit l =>
    unfold exec execCommit at h
    refine .of_whileRunning h fun _ => ?_
    split
    · split_ifs
      · exact .refuse _ _ (by decide)
      · exact s.commitScreens_effect l _
    · exact .refuse _ _ (by decide)
  | freeze b =>
    unfold exec execFreeze at h
    exact .of_whileRunning h fun _ => s.requestFreeze_effect _ (.inl rfl)
  | thaw b =>
    unfold exec execThaw at h
    exact .of_whileRunning h fun _ => s.requestFreeze_effect _ (.inr rfl)
  | setSource b w x d p e n m =>
    unfold exec execSetSource at h
    refine .of_whileRunning h fun _ => ?_
    split
    · rename_i hi
      exact s.configureSource_effect _ hi
    · exact .refuse _ _ (by decide)
  | resetSource b =>
    unfold exec execResetSource at h
    refine .of_whileRunning h fun _ => ?_
    split
    · rename_i hi
      exact .sourceRestarted hi
    · exact .refuse _ _ (by decide)
  | setScreen b w x d e =>
    unfold exec execSetScreen at h
    refine .of_onScreenNamed h fun sc hsc => ?_
    unfold State.configureScreen
    split
    · exact .answered _ _ _ fun _ => by decide
    · split_ifs with hdown hcount
      · exact .refuse _ _ (by decide)
      · exact .refuse _ _ (by decide)
      · exact .screenConfigured hsc (not_not.1 hdown) (not_not.1 hcount)
  | setScreenTone b c g =>
    unfold exec execSetScreenTone at h
    exact .of_onScreenNamed h fun sc hsc => .toneStored
  | enableLink b =>
    unfold exec execEnableLink at h
    refine .of_onScreenNamed h fun sc hsc => ?_
    unfold State.enableLink
    split_ifs with hstate
    · exact .linkEnabled hsc hstate
    · exact .refuse _ _ (by decide)
  | disableLink b =>
    unfold exec execDisableLink at h
    refine .of_onScreenNamed h fun sc hsc => ?_
    unfold State.disableLink
    split_ifs with hstate
    · exact .answered _ _ _ fun _ => by decide
    · exact .linkDisabled hsc hstate
  | resetLink b =>
    unfold exec execResetLink at h
    refine .of_onScreenNamed h fun sc hsc => ?_
    unfold State.resetLink
    split
    · exact .refuse _ _ (by decide)
    · rename_i hstate
      exact .resetRenewed hsc hstate
    · rename_i hdown hresetting
      exact .linkReset hsc hdown hresetting
  | setDomain b m p lock =>
    unfold exec execSetDomain at h
    refine .of_whileRunning h fun _ => ?_
    split
    · rename_i hm
      split_ifs
      · exact .domainSet hm
      · exact .refuse _ _ (by decide)
    · exact .refuse _ _ (by decide)
  | takeNotice =>
    unfold exec execTakeNotice at h
    refine .of_whileRunning h fun _ => ?_
    split
    · exact .answered _ _ _ fun _ => by decide
    · rename_i he
      exact .noticeTaken he
  | maskNotices l =>
    unfold exec execMaskNotices at h
    refine .of_whileRunning h fun _ => ?_
    split
    · split_ifs
      · exact .refuse _ _ (by decide)
      · exact .masked
    · exact .refuse _ _ (by decide)
  | lookup b | listSource b | querySource b | queryDomain b =>
    simp only [exec, execLookup, execListSource, execQuerySource, execQueryDomain] at h
    refine .of_whileRunning h fun _ => ?_
    split
    · exact .answered _ _ _ fun _ => by decide
    · exact .refuse _ _ (by decide)
  | listScreen b =>
    unfold exec execListScreen at h
    refine .of_whileRunning h fun _ => ?_
    split
    · exact .answered _ _ _ fun _ => by decide
    · exact .refuse _ _ (by decide)
  | queryScreen b =>
    unfold exec execQueryScreen at h
    exact .of_onScreenNamed h fun sc _ => .answered _ _ _ fun _ => by decide
  | commandFrameRejected reason code =>
    unfold exec execCommandFrameRejected at h
    exact .of_whileRunning h fun _ => .answered _ _ _ nofun
  | fetchTransaction n =>
    unfold exec execFetchTransaction at h
    exact .of_whileRunning h fun _ => .fetched
  | frameStart i tag =>
    unfold exec execFrameStart at h
    exact .of_whileRunning h fun _ => .frameStarted
  | line i n field =>
    unfold exec execLine at h
    exact .of_whileRunning h fun _ => .lineTaken
  | frameEnd i =>
    unfold exec execFrameEnd at h
    refine .of_whileRunning h fun _ => ?_
    split
    · rename_i hf
      exact .frameEnded hf
    · exact .unchanged _ nofun
  | discardedPacket i =>
    unfold exec execDiscardedPacket at h
    exact .of_whileRunning h fun _ => .unchanged _ nofun
  | missingFrameExpiry i =>
    unfold exec execMissingFrameExpiry at h
    refine .of_whileRunning h fun _ => ?_
    split_ifs with hdue
    · exact .expired (by simpa [InputContext.expiryDue] using hdue)
    · exact .unchanged _ nofun
  | domainFrameStart d =>
    unfold exec execDomainFrameStart at h
    refine .of_whileRunning h fun hrun => ?_
    split_ifs with hdue
    · exact .domainStarted rfl hrun (by simpa [State.frameDue] using hdue) fun e he => (Instr.domainFrameStart.inj he).symm
    · exact .unchanged _ nofun
  | trainingWindowExpiry sc =>
    unfold exec execTrainingWindowExpiry at h
    refine .of_whileRunning h fun hrun => ?_
    split_ifs with hdue
    · simp only [Bool.and_eq_true, State.frameDue, decide_eq_true_eq] at hdue
      exact .domainStarted rfl hrun hdue.1 fun e he => Instr.noConfusion he
    · exact .unchanged _ nofun
  | linkResetEnd sc =>
    unfold exec execLinkResetEnd at h
    refine .of_whileRunning h fun hrun => ?_
    split_ifs with hdue
    · simp only [Bool.and_eq_true, State.frameDue, decide_eq_true_eq] at hdue
      exact .domainStarted rfl hrun hdue.1 fun e he => Instr.noConfusion he
    · exact .unchanged _ nofun
  | lineHandover sc =>
    unfold exec execLineHandover at h
    refine .of_whileRunning h fun _ => ?_
    split
    · exact .unchanged _ nofun
    · rename_i hm
      exact .lineHanded hm
  | statusReturn sc sound bytes =>
    unfold exec execStatusReturn at h
    refine .of_whileRunning h fun _ => ?_
    split
    · exact .unchanged _ nofun
    · rename_i hr
      split_ifs with hstate
      · exact .returnTaken hr hstate
      · exact .unchanged _ nofun
  | resetnAssert =>
    unfold exec execResetnAssert at h
    exact .of_whileRunning h .resetAsserted
  | resetnRelease =>
    obtain rfl := Host.Outcome.next.inj h
    exact .resetReleased

/-- Two states that differ in the queue, the count of order choices and the time base alone. -/
def State.SameBlocks (s t : State) : Prop := t = { s with timeBase := t.timeBase, pending := t.pending, choiceCount := t.choiceCount }

/-- A step is the effect of one row on a state with the same blocks, or leaves the blocks as they are (log entry 1). -/
theorem step_cases {s t : State} (h : step s = .next t) :
    s.SameBlocks t ∨ ∃ u c, s.SameBlocks u ∧ Effect u c t := by
  unfold step at h
  split at h
  · refine .inr ⟨_, _, ?_, exec_effect h⟩
    rfl
  · split_ifs at h
    · obtain rfl := Host.Outcome.next.inj h
      exact .inl rfl
    · split at h
      · refine .inr ⟨_, _, ?_, exec_effect h⟩
        rfl
      · obtain rfl := Host.Outcome.next.inj h
        exact .inl rfl

/-- An invariant that reads the blocks alone and that every row keeps is kept by every step. -/
theorem step_keeps {P : State → Prop} (hsame : ∀ s t : State, s.SameBlocks t → P s → P t)
    (heffect : ∀ s c t, Effect s c t → P s → P t) {s t : State} (h : step s = .next t) (hs : P s) : P t := by
  obtain hst | ⟨u, c, hsu, hut⟩ := step_cases h
  · exact hsame s t hst hs
  · exact heffect u c t hut (hsame s u hsu hs)

end Sys2Proof.Machine
end


section
/-! SUPPORT. What a row does to the placement table between frame starts, record by record, and what a composer's frame start leaves of the
records, the inputs and the links (R18 to R22, R34, R39 to R47, R135). -/

namespace Sys2Proof.Machine

/-! ### Moves of one record between frame starts -/

/-- What a row that is no frame start can do to one record. -/
inductive RecordMove (s : State) (c : Instr) : Option Placement → Option Placement → Prop
  | same (b : Option Placement) : RecordMove s c b b
  | opened {raw : Option RawImage} {sc : Screen} {cls : PlacementClass} {sel : Bool} {m : Image} (himage : raw.bind imageOf = some m)
      (hcheck : s.checkImage sc cls sel m = none) : RecordMove s c none (some (.opened sc cls sel m))
  | amended {p : Placement} {es : List RawField} {m : Image} (harmed : p.armed = false) (hm : s.amendedImage p es = .ok m) :
      RecordMove s c (some p) (some { p with staged := m })
  | freed {p : Placement} (harmed : p.armed = false) (hnew : p.committed = none) : RecordMove s c (some p) none
  | retired {p : Placement} (harmed : p.armed = false) (hlive : p.committed ≠ none) :
      RecordMove s c (some p) (some { p with retireStaged := true })
  | armed (named : List Screen) (p : Placement) : RecordMove s c (some p) (some (armRecord named p))
  | requested {p : Placement} (r : FreezeRequest) (hcls : p.cls ≠ .safety) (hlive : p.committed ≠ none) :
      RecordMove s c (some p) (some { p with freezeRequest := some r })
  | disarmed (p : Placement) (hc : c = .resetnAssert) : RecordMove s c (some p) (some (disarm p))

/-- Every record is FREE after release of RESETn (R26). -/
theorem reset_placement (h : Handle) : State.reset.placement h = none := by
  change (Vector.replicate 64 Record.reset)[h].body = none
  rw [Fin.getElem_fin, Vector.getElem_replicate]
  rfl

/-- A row that is no frame start and no release moves each record by one of the moves. -/
theorem Effect.record_cases {s t : State} {c : Instr} (h : Effect s c t) :
    (∃ d, t = s.domainStart d ∧ Safety.isFrameStart c = true) ∨ (c = .resetnRelease ∧ ∀ k, t.placement k = none) ∨
    (∀ k, RecordMove s c (s.placement k) (t.placement k)) := by
  have keep : ∀ {u : State}, (∀ k, u.placement k = s.placement k) → ∀ k, RecordMove s c (s.placement k) (u.placement k) :=
    fun hu k => hu k ▸ .same _
  have one : ∀ {u : State} {h : Handle} {b : Option Placement}, (∀ k, u.placement k = if k = h then b else s.placement k) →
      RecordMove s c (s.placement h) b → ∀ k, RecordMove s c (s.placement k) (u.placement k) := by
    intro u h b hu hmove k
    rw [hu]
    split
    · rename_i hk; exact hk ▸ hmove
    · exact .same _
  cases h with
  | domainStarted hc hrun hdue hd => exact .inl ⟨_, rfl, hc⟩
  | resetReleased => exact .inr (.inl ⟨rfl, reset_placement⟩)
  | @opened _ _ _ _ sc cls sel m h _ himage hcheck hfree hcount =>
    refine .inr (.inr (one (h := h) (b := some (.opened sc cls sel m)) (fun k => by simp) ?_))
    rw [(State.lowestFree_eq_some.1 hfree).1]
    exact .opened himage hcheck
  | @amended _ _ _ _ h p m _ hh hp harmed hm =>
    refine .inr (.inr (one (h := h) (b := some { p with staged := m }) (fun k => by simp [hp]) ?_))
    rw [hp]
    exact .amended harmed hm
  | @freed _ _ _ h p _ hh hp harmed hnew =>
    refine .inr (.inr (one (h := h) (b := none) (fun k => by simp) ?_))
    rw [hp]
    exact .freed harmed hnew
  | @retired _ _ _ h p _ hh hp harmed hlive =>
    refine .inr (.inr (one (h := h) (b := some { p with retireStaged := true }) (fun k => by simp [hp]) ?_))
    rw [hp]
    exact .retired harmed hlive
  | @freezeRequested _ h p r _ hc hp hcls hlive =>
    refine .inr (.inr (one (h := h) (b := some { p with freezeRequest := some r }) (fun k => by simp [hp]) ?_))
    rw [hp]
    exact .requested r hcls hlive
  | armed hpass =>
    refine .inr (.inr fun k => ?_)
    rw [State.respond_placement, State.arm_placement]
    cases s.placement k with
    | none => exact .same _
    | some p => exact .armed _ p
  | resetAsserted =>
    refine .inr (.inr fun k => ?_)
    rw [← State.record_body s.assertReset, State.assertReset_record]
    change RecordMove s _ _ ((s.placement k).map disarm)
    cases s.placement k with
    | none => exact .same _
    | some p => exact .disarmed p rfl
  | unchanged => exact .inr (.inr (keep fun k => rfl))
  | answered => exact .inr (.inr (keep fun k => rfl))
  | sourceConfigured | sourceRestarted | screenConfigured | toneStored | linkEnabled | linkDisabled | linkReset | resetRenewed | domainSet
  | lineTaken | frameEnded | expired | lineHanded | returnTaken => exact .inr (.inr (keep fun k => by simp))
  | noticeTaken | masked | fetched => exact .inr (.inr (keep fun k => rfl))
  | frameStarted => exact .inr (.inr (keep fun k => by rw [State.reportStarts_frame]; simp))

/-- Between frame starts a record that has a committed image keeps what its view says of it (R141). -/
theorem RecordMove.live_cases {s : State} {c : Instr} {b : Option Placement} {q : Placement} (h : RecordMove s c b (some q)) :
    q.committed = none ∨ ∃ p, b = some p ∧ q = { p with
      staged := q.staged, armed := q.armed, retireStaged := q.retireStaged, freezeRequest := q.freezeRequest } := by
  cases h with
  | same => exact .inr ⟨q, rfl, rfl⟩
  | opened => exact .inl rfl
  | amended => exact .inr ⟨_, rfl, rfl⟩
  | retired => exact .inr ⟨_, rfl, rfl⟩
  | armed named p => exact .inr ⟨p, rfl, by unfold armRecord; split <;> rfl⟩
  | requested => exact .inr ⟨_, rfl, rfl⟩
  | disarmed p => exact .inr ⟨p, rfl, rfl⟩

/-- The table is one of the blocks. -/
theorem State.SameBlocks.placement {s t : State} (h : s.SameBlocks t) (k : Handle) : t.placement k = s.placement k := by
  unfold State.SameBlocks at h
  rw [h]; rfl

/-! ### A composer's frame start: the records -/

/-- Application leaves a record what its image and flags give, and numbers LIVE ones alone (R39 to R43). -/
theorem State.applyArmed_placement_cases (s : State) (sc : Screen) (frame : Nat) (h : Handle) :
    (s.applyArmed sc frame).placement h = s.afterApplication sc frame h ∨
    ∃ q j, s.afterApplication sc frame h = some q ∧ q.committed ≠ none ∧
      (s.applyArmed sc frame).placement h = some { q with joinPosition := j } := by
  obtain ⟨hnone, he⟩ | ⟨t, l, hl, ht, -, -, he⟩ := s.applyArmed_eq sc frame
  · left
    rw [he]
    unfold State.afterApplication
    cases hp : s.placement h with
    | none => rfl
    | some p =>
      have : ¬(p.screen = sc ∧ p.armed = true) := fun e => by simp [hnone h p hp e.1] at e
      simp [this]
  · have hplace : (s.applyArmed sc frame).placement h = (t.renumber 0 l).placement h := by rw [he]; simp
    by_cases hm : h ∈ l
    · obtain ⟨q, hq, -, hlive⟩ := State.mem_rebuiltList (hl ▸ hm)
      obtain ⟨j, hj⟩ := t.renumber_placement_exists 0 l h
      refine .inr ⟨q, j q, ht h ▸ hq, hlive, ?_⟩
      rw [hplace, hj, hq]
      rfl
    · left
      rw [hplace, State.renumber_placement_notMem _ _ hm, ht]

/-- What the composer's five steps can make of one record of its screen, but for the freeze request and the view decision (R39 to R47). -/
theorem State.takeChoice_placement_cases (s : State) (sc : Screen) (h : Handle) :
    (s.takeChoice sc).placement h = s.placement h ∨
    ∃ p m i, s.placement h = some p ∧ p.screen = sc ∧ p.selectable = true ∧ p.committed = some m ∧ i ∈ m.choiceList ∧
      (s.takeChoice sc).placement h = some (p.chosen m i) := by
  obtain ⟨hsame, -⟩ | ⟨n, p, m, i, -, -, hsel, hp, hsc, hm, hi, hchosen, -⟩ := s.takeChoice_record sc h
  · exact .inl hsame
  · obtain ⟨p', -, hp', -, hs, -⟩ := State.liveSelectable_eq_some hsel
    obtain rfl := Option.some.inj (hp.symm.trans hp')
    exact .inr ⟨p, m, i, hp, hsc, hs, hm, List.mem_of_getElem? hi, hchosen⟩

/-- Answers of the store: the latest slot it names for an input is a slot of that input (R80, R126). -/
def OwnSlots (answers : InputId → SourceAnswer) : Prop := ∀ i r n, (answers i).fitSlot = some (r, n) → r.input = i

theorem State.answer_ownSlots (s : State) : OwnSlots s.answer := by
  intro i r n h
  unfold SourceAnswer.fitSlot State.answer at h
  dsimp only at h
  split at h
  · obtain ⟨k, -, hk⟩ := Option.map_eq_some_iff.1 h
    exact (congrArg (fun x : SlotRef × Nat => x.1.input) hk).symm
  · cases h

/-- The state the view decisions of a composer's frame start are taken in. -/
def State.beforeViews (s : State) (sc : Screen) (frame : Nat) : State :=
  (((s.applyArmed sc frame).takeChoice sc).takeFreezes sc).takeTone sc

/-- A property of single records that application, numbering, a choice and a freeze request keep. -/
structure KeptBeforeViews (Q : Placement → Prop) : Prop where
  apply : ∀ n p q, Q p → p.applied n = some q → Q q
  join : ∀ p j, p.committed ≠ none → Q p → Q { p with joinPosition := j }
  choice : ∀ p m i, Q p → p.selectable = true → p.committed = some m → i ∈ m.choiceList → Q (p.chosen m i)
  freeze : ∀ p, p.committed ≠ none → Q p → Q p.freezeTaken

/-- A property of single records that every stage of a composer's frame start keeps. -/
structure KeptByStages (Q : Placement → Prop) : Prop extends KeptBeforeViews Q where
  decide : ∀ answers p, OwnSlots answers → p.committed ≠ none → Q p → Q (p.decided answers)

/-- A property of single records that application, a choice and a freeze request keep holds before the view decisions. -/
theorem State.beforeViews_keeps {Q : Placement → Prop} {s : State} {sc : Screen} {frame : Nat} (hQ : KeptBeforeViews Q)
    (hs : ∀ h p, s.placement h = some p → Q p) (h : Handle) (p : Placement) (hp : (s.beforeViews sc frame).placement h = some p) :
    Q p := by
  have hafter : ∀ h q, s.afterApplication sc frame h = some q → Q q := by
    intro h q hq
    obtain ⟨p, hp, hq⟩ := Option.bind_eq_some_iff.1 hq
    split at hq
    · exact hQ.apply frame p q (hs h p hp) hq
    · exact Option.some.inj hq ▸ hs h p hp
  have h1 : ∀ h p, (s.applyArmed sc frame).placement h = some p → Q p := by
    intro h p hp
    obtain he | ⟨q, j, hq, hlive, he⟩ := s.applyArmed_placement_cases sc frame h
    · exact hafter h p (he ▸ hp)
    · exact Option.some.inj (he.symm.trans hp) ▸ hQ.join q j hlive (hafter h q hq)
  have h2 : ∀ h p, ((s.applyArmed sc frame).takeChoice sc).placement h = some p → Q p := by
    intro h p hp
    obtain he | ⟨q, m, i, hq, -, hsel, hm, hi, he⟩ := (s.applyArmed sc frame).takeChoice_placement_cases sc h
    · exact h1 h p (he ▸ hp)
    · exact Option.some.inj (he.symm.trans hp) ▸ hQ.choice q m i (h1 h q hq) hsel hm hi
  unfold State.beforeViews at hp
  simp only [State.takeTone_rest] at hp
  rw [State.takeFreezes_placement] at hp
  split at hp
  · rename_i hmem
    obtain ⟨q, hq, -, hlive⟩ := State.mem_liveList_iff.1 hmem
    rw [hq] at hp
    exact Option.some.inj hp ▸ hQ.freeze q hlive (h2 h q hq)
  · exact h2 h p hp

/-- A record of the screen is decided, once LIVE, and any other stays as it was before the decisions (R126). -/
theorem State.composerStart_placement (s : State) (sc : Screen) (frame : Nat) (h : Handle) :
    (s.composerStart sc frame).placement h =
      if h ∈ (s.beforeViews sc frame).liveList sc then
        ((s.beforeViews sc frame).placement h).map (Placement.decided (s.beforeViews sc frame).answer)
      else (s.beforeViews sc frame).placement h := by
  unfold State.composerStart
  simp only [State.beginComposition_rest]
  exact State.decideViews_placement _ sc h

/-- A property of single records that every stage of a composer's frame start keeps is kept by the whole. -/
theorem State.composerStart_keeps {Q : Placement → Prop} {s : State} {sc : Screen} {frame : Nat} (hQ : KeptByStages Q)
    (hs : ∀ h p, s.placement h = some p → Q p) (h : Handle) (p : Placement) (hp : (s.composerStart sc frame).placement h = some p) :
    Q p := by
  have hbefore := State.beforeViews_keeps (sc := sc) (frame := frame) hQ.toKeptBeforeViews hs
  rw [State.composerStart_placement] at hp
  split at hp
  · rename_i hmem
    obtain ⟨q, hq, -, hlive⟩ := State.mem_liveList_iff.1 hmem
    rw [hq] at hp
    exact Option.some.inj hp ▸ hQ.decide _ q (State.answer_ownSlots _) hlive (hbefore h q hq)
  · exact hbefore h p hp

/-- The table of a domain frame start is that of its two composers (R90). -/
theorem State.domainStart_record (s : State) (d : Domain) (h : Handle) :
    (s.domainStart d).record h =
      (((s.domainWork d).composerStart (domainScreens d).1 ((s.domainWork d).domain d).frameNumber).composerStart (domainScreens d).2
        ((s.domainWork d).domain d).frameNumber).record h := by
  simp [State.domainStart, State.handFrameStart]

theorem State.domainStart_placement (s : State) (d : Domain) (h : Handle) :
    (s.domainStart d).placement h =
      (((s.domainWork d).composerStart (domainScreens d).1 ((s.domainWork d).domain d).frameNumber).composerStart (domainScreens d).2
        ((s.domainWork d).domain d).frameNumber).placement h :=
  congrArg Record.body (s.domainStart_record d h)

/-! ### A composer's frame start: the inputs and the links -/

/-- A part of the state that a change of holders leaves of every input: all but the slots (R80). -/
def State.SameInputs (s t : State) : Prop := ∀ i, t.input i = { s.input i with slots := (t.input i).slots }

theorem State.SameInputs.refl (s : State) : s.SameInputs s := fun _ => rfl

theorem State.SameInputs.of_eq {s t : State} (h : ∀ i, t.input i = s.input i) : s.SameInputs t := fun i => by rw [h]

theorem State.SameInputs.trans {s t u : State} (hst : s.SameInputs t) (htu : t.SameInputs u) : s.SameInputs u := fun i => by
  rw [htu i, hst i]

theorem State.setLatch_sameInputs (s : State) (h : Handle) (r : Option SlotRef) : s.SameInputs (s.setLatch h r) :=
  State.setLatch_input s h r

theorem State.sourceChanged_sameInputs (s : State) (h : Handle) : s.SameInputs (s.sourceChanged h) :=
  (s.setLatch_sameInputs h none).trans (.of_eq fun _ => by simp [State.sourceChanged])

theorem State.freeRecord_sameInputs (s : State) (h : Handle) : s.SameInputs (s.freeRecord h) :=
  (s.setLatch_sameInputs h none).trans (.of_eq fun _ => by simp [State.freeRecord])

theorem State.applyRecord_sameInputs (n : Nat) (s : State) (h : Handle) : s.SameInputs (State.applyRecord n s h) := by
  unfold State.applyRecord
  split
  · exact .refl s
  · split_ifs
    · exact s.freeRecord_sameInputs h
    · split
      · exact .of_eq fun _ => by simp
      · dsimp only
        split_ifs
        · exact .of_eq fun _ => by simp
        · exact State.SameInputs.trans (.of_eq fun _ => by simp) (State.sourceChanged_sameInputs _ h)

theorem State.renumber_input (s : State) (n : Nat) (l : List Handle) (i : InputId) : (s.renumber n l).input i = s.input i := by
  rw [State.renumber_frame]; rfl

theorem State.applyArmed_sameInputs (s : State) (sc : Screen) (n : Nat) : s.SameInputs (s.applyArmed sc n) := by
  obtain ⟨-, he⟩ | ⟨t, l, -, -, ht, -, he⟩ := s.applyArmed_eq sc n
  · rw [he]; exact .refl s
  · have hfold : s.SameInputs t := ht ▸ foldl_keeps _ (.refl s) fun b h hb => hb.trans (b.applyRecord_sameInputs n h)
    rw [he]
    exact hfold.trans (.of_eq fun _ => by simp [State.renumber_input])

theorem State.applyChoice_sameInputs (s : State) (sc : Screen) (h : Handle) (m : Image) (i : InputId) :
    s.SameInputs (s.applyChoice sc h m i) := by
  have hchosen : s.SameInputs ((s.modPlacement h (Placement.choose i)).advanceGeneration h) := .of_eq fun _ => by simp
  unfold State.applyChoice
  dsimp only
  split_ifs
  · exact hchosen.trans (.of_eq fun _ => by simp)
  · exact hchosen.trans ((State.sourceChanged_sameInputs _ h).trans (.of_eq fun _ => by simp))

theorem State.takeChoice_sameInputs (s : State) (sc : Screen) : s.SameInputs (s.takeChoice sc) := by
  unfold State.takeChoice
  split_ifs
  · split
    · exact .refl s
    · dsimp only
      split
      · exact State.SameInputs.trans (.of_eq fun _ => State.modLink_input ..) (State.applyChoice_sameInputs _ sc _ _ _)
      · exact .of_eq fun _ => rfl
  · exact .refl s

theorem State.takeFreeze_sameInputs (s : State) (h : Handle) : s.SameInputs (s.takeFreeze h) := by
  unfold State.takeFreeze
  split
  · exact .refl s
  · split
    · exact .refl s
    · exact .of_eq fun _ => by simp
    · dsimp only
      split_ifs
      · exact State.SameInputs.trans (.of_eq fun _ => (State.modPlacement_rest s h _).2.2.2.2.2.2.2.2.2.2.1 _) (State.setLatch_sameInputs _ _ _)
      · exact .of_eq fun _ => by simp

theorem State.writeDecision_sameInputs (s : State) (h : Handle) (p : Placement) (d : Decision) : s.SameInputs (s.writeDecision h p d) := by
  refine (s.setLatch_sameInputs h d.slot).trans (.of_eq fun _ => ?_)
  simp [State.writeDecision]

theorem State.decideView_sameInputs (s : State) (h : Handle) : s.SameInputs (s.decideView h) := by
  unfold State.decideView
  split
  · exact .refl s
  · split
    · exact .refl s
    · exact s.writeDecision_sameInputs h _ _

theorem State.takeFreezes_sameInputs (s : State) (sc : Screen) : s.SameInputs (s.takeFreezes sc) :=
  foldl_keeps _ (.refl s) fun b h hb => hb.trans (b.takeFreeze_sameInputs h)

theorem State.decideViews_sameInputs (s : State) (sc : Screen) : s.SameInputs (s.decideViews sc) :=
  foldl_keeps _ (.refl s) fun b h hb => hb.trans (b.decideView_sameInputs h)

theorem State.beforeViews_sameInputs (s : State) (sc : Screen) (n : Nat) : s.SameInputs (s.beforeViews sc n) :=
  (s.applyArmed_sameInputs sc n).trans ((State.takeChoice_sameInputs _ sc).trans
    ((State.takeFreezes_sameInputs _ sc).trans (.of_eq fun _ => rfl)))

/-- A composer's frame start reaches nothing of an input but its slots (R39, R80). -/
theorem State.composerStart_sameInputs (s : State) (sc : Screen) (n : Nat) : s.SameInputs (s.composerStart sc n) :=
  (s.beforeViews_sameInputs sc n).trans ((State.decideViews_sameInputs _ sc).trans (.of_eq fun _ => rfl))

/-- The inputs of a domain frame start are those of its two composers (R90). -/
theorem State.domainStart_input (s : State) (d : Domain) (i : InputId) :
    (s.domainStart d).input i =
      (((s.domainWork d).composerStart (domainScreens d).1 ((s.domainWork d).domain d).frameNumber).composerStart (domainScreens d).2
        ((s.domainWork d).domain d).frameNumber).input i := by
  simp [State.domainStart, State.handFrameStart]

/-- A domain frame start reaches nothing of an input but its slots (R90). -/
theorem State.domainStart_sameInputs (s : State) (d : Domain) : s.SameInputs (s.domainStart d) := by
  have hwork : s.SameInputs (s.domainWork d) := .of_eq fun _ => by simp
  exact hwork.trans ((State.composerStart_sameInputs _ _ _).trans ((State.composerStart_sameInputs _ _ _).trans
    (.of_eq (s.domainStart_input d))))

/-- A screen's count of bad choices after its pending choice was taken: the same, or one more (R46). -/
def BadChoicesAfter (b n : Nat) : Prop := n = b ∨ n = satSucc 65535 b

/-- Step 2 takes the pending choice of a rear screen's link, and may count a bad one (R46). -/
theorem State.takeChoice_link (s : State) (sc x : Screen) :
    ∃ n, BadChoicesAfter (s.link sc).badChoices n ∧ (s.takeChoice sc).link x =
      if x = sc ∧ isRearScreen sc = true ∧ (s.link sc).pendingChoice ≠ none then
        { s.link sc with pendingChoice := none, badChoices := n } else s.link x := by
  unfold State.takeChoice
  by_cases hrear : isRearScreen sc = true
  · cases hk : (s.link sc).pendingChoice with
    | none => exact ⟨_, .inl rfl, by simp⟩
    | some k =>
      simp only [hrear, if_true]
      split
      · exact ⟨_, .inl rfl, by by_cases hx : x = sc <;> simp [hx]⟩
      · exact ⟨_, .inr rfl, by by_cases hx : x = sc <;> simp [hx]⟩
  · exact ⟨_, .inl rfl, by simp [hrear]⟩

theorem State.composerStart_link (s : State) (sc x : Screen) (n : Nat) :
    (s.composerStart sc n).link x = ((s.applyArmed sc n).takeChoice sc).link x := by
  simp [State.composerStart]

/-- A composer's frame start leaves of its link all but the pending choice and the bad choices (R39, R46). -/
theorem State.composerStart_link_cases (s : State) (sc x : Screen) (n : Nat) :
    ∃ k b, BadChoicesAfter (s.link x).badChoices b ∧
      (s.composerStart sc n).link x = { s.link x with pendingChoice := k, badChoices := b } ∧
      (x ≠ sc → (s.composerStart sc n).link x = s.link x) := by
  obtain ⟨b, hafter, hb⟩ := (s.applyArmed sc n).takeChoice_link sc x
  rw [State.composerStart_link, hb]
  simp only [State.applyArmed_rest] at hafter ⊢
  split
  · rename_i h
    exact ⟨none, b, h.1 ▸ hafter, by rw [h.1], fun hx => absurd h.1 hx⟩
  · exact ⟨(s.link x).pendingChoice, (s.link x).badChoices, .inl rfl, rfl, fun _ => rfl⟩

/-- A link's frame start keeps the screen configuration and the tone (R144). -/
theorem LinkContext.frameStart_config (l : LinkContext) (n : Nat) : (l.frameStart n).config = l.config := by
  have hsend : ∀ u : LinkContext, (u.beginSending n).config = u.config := fun u => by
    unfold LinkContext.beginSending; cases u.state <;> rfl
  rw [LinkContext.frameStart, hsend]
  exact l.closeFrame.judgeInterval_keeps.2.1.trans (by rw [LinkContext.closeFrame_eq])

/-- The two screens of a domain are two (Chapter 5). -/
theorem domainScreens_ne (d : Domain) : (domainScreens d).1 ≠ (domainScreens d).2 := by cases d <;> decide

theorem screenDomain_eq_iff {sc : Screen} {d : Domain} : screenDomain sc = d ↔ sc = (domainScreens d).1 ∨ sc = (domainScreens d).2 := by
  cases sc <;> cases d <;> decide

/-- A link at a domain frame start: that of the composers, and then its own frame start on the domain's two screens (R90, R151). -/
theorem State.domainStart_link (s : State) (d : Domain) (x : Screen) :
    ∃ k b, BadChoicesAfter (s.link x).badChoices b ∧ (s.domainStart d).link x =
      if screenDomain x = d then ({ s.link x with pendingChoice := k, badChoices := b } : LinkContext).frameStart
        ((s.domainWork d).domain d).frameNumber
      else s.link x := by
  generalize hn : ((s.domainWork d).domain d).frameNumber = n
  obtain ⟨k1, b1, hb1, h1, h1ne⟩ := (s.domainWork d).composerStart_link_cases (domainScreens d).1 x n
  obtain ⟨k2, b2, hb2, h2, h2ne⟩ := ((s.domainWork d).composerStart (domainScreens d).1 n).composerStart_link_cases (domainScreens d).2 x n
  have hne := domainScreens_ne d
  have hwork : (s.domainWork d).link x = s.link x := by simp
  rw [hwork] at hb1 h1 h1ne
  simp only [State.domainStart, State.handFrameStart, State.linkStart, State.changeLink_link, hn]
  by_cases hx2 : x = (domainScreens d).2
  · rw [h1ne (hx2 ▸ hne.symm)] at hb2 h2
    rw [← hx2] at h2
    refine ⟨k2, b2, hb2, ?_⟩
    rw [if_pos hx2, if_neg hne.symm, if_pos (screenDomain_eq_iff.2 (.inr hx2)), ← hx2, h2]
  · rw [if_neg hx2]
    by_cases hx1 : x = (domainScreens d).1
    · refine ⟨k1, b1, hb1, ?_⟩
      rw [if_pos hx1, ← hx1, if_pos (screenDomain_eq_iff.2 (.inl hx1))]
      have h2ne := h2ne hx2
      rw [← hx1] at h2ne h1
      rw [h2ne, h1]
    · exact ⟨none, _, .inl rfl, by
        rw [if_neg hx1, h2ne hx2, h1ne hx1, if_neg fun h => (screenDomain_eq_iff.1 h).elim hx1 hx2]⟩

/-- A frame start changes no screen configuration (R162). -/
theorem State.domainStart_config (s : State) (d : Domain) (x : Screen) : ((s.domainStart d).link x).config = (s.link x).config := by
  obtain ⟨k, b, -, h⟩ := s.domainStart_link d x
  rw [h]
  split
  · exact LinkContext.frameStart_config _ _
  · rfl

/-- A frame start changes no geometry (R67). -/
theorem State.domainStart_geometry (s : State) (d : Domain) : (s.domainStart d).geometry = s.geometry := by
  funext i
  unfold State.geometry
  rw [s.domainStart_sameInputs d i]

/-- A property of single records that every stage of a composer's frame start keeps is kept by a domain frame start. -/
theorem State.domainStart_keeps {Q : Placement → Prop} {s : State} {d : Domain} (hQ : KeptByStages Q)
    (hs : ∀ h p, s.placement h = some p → Q p) (h : Handle) (p : Placement) (hp : (s.domainStart d).placement h = some p) : Q p := by
  rw [State.domainStart_placement] at hp
  refine State.composerStart_keeps hQ ?_ h p hp
  refine State.composerStart_keeps hQ fun h p hp => hs h p ?_
  simpa using hp

/-- A property of single records that every move and every stage of a frame start keep is kept by every row. -/
theorem Effect.keeps_records {Q : Placement → Prop} {s t : State} {c : Instr} (h : Effect s c t)
    (hmove : ∀ b q, RecordMove s c b (some q) → (∀ p, b = some p → Q p) → Q q) (hQ : KeptByStages Q)
    (hs : ∀ h p, s.placement h = some p → Q p) (k : Handle) (q : Placement) (hq : t.placement k = some q) : Q q := by
  obtain ⟨d, rfl, -⟩ | ⟨-, hnone⟩ | hmoves := h.record_cases
  · exact State.domainStart_keeps hQ hs k q hq
  · rw [hnone] at hq; cases hq
  · exact hmove _ q (hq ▸ hmoves k) fun p hp => hs k p hp

end Sys2Proof.Machine
end


section
/-! SUPPORT. The laws of single records: what application, a choice, a freeze request and a view decision make of one record, and that every
row keeps the laws that speak of one record at a time (R6, R12, R21, R22, R134, R136, R138). -/

namespace Sys2Proof.Machine

/-! ### One record through a frame start -/

/-- Application of a record that is not freed leaves it LIVE with its staged image, its fixed fields and its freeze (R40, R41). -/
theorem Placement.applied_eq_some {n : Nat} {p q : Placement} (h : p.applied n = some q) :
    q.screen = p.screen ∧ q.cls = p.cls ∧ q.selectable = p.selectable ∧ q.committed = some p.staged ∧ q.staged = p.staged ∧
    q.armed = false ∧ q.frozen = p.frozen ∧ q.freezeRequest = p.freezeRequest ∧ p.retireStaged = false ∧ q.retireStaged = false ∧
    ((p.committed = none ∧ q.view = none ∧ q.latched = none) ∨
      ∃ m, p.committed = some m ∧ q.view = p.view ∧
        ((m.source = p.staged.source ∧ q.latched = p.latched ∧ q.age = p.age) ∨ (q.latched = none ∧ q.age = 0))) := by
  unfold Placement.applied at h
  split_ifs at h with hretired
  have hretired : p.retireStaged = false := by simpa using hretired
  split at h
  · rename_i hnew
    obtain rfl := Option.some.inj h
    exact ⟨rfl, rfl, rfl, rfl, rfl, rfl, rfl, rfl, hretired, hretired, .inl ⟨hnew, rfl, rfl⟩⟩
  · rename_i m hm
    obtain rfl := Option.some.inj h
    by_cases hs : m.source = p.staged.source
    · simp [hs, Placement.takeStaged, hretired, hm]
    · simp [hs, Placement.takeStaged, hretired, hm]

/-- A choice writes the two sources and may release the latch, and touches no other field (R47). -/
theorem Placement.chosen_eq {p : Placement} {m : Image} (i : InputId) (hm : p.committed = some m) :
    p.chosen m i = { p with
      committed := some { m with source := .input i }
      staged := if p.staged.choiceList.contains i then { p.staged with source := .input i } else p.staged
      latched := if m.source = .input i then p.latched else none
      age := if m.source = .input i then p.age else 0
      lastFrame := if m.source = .input i then p.lastFrame else 0 } := by
  unfold Placement.chosen Placement.choose
  split_ifs <;> simp [hm]

/-- A freeze request reaches the request, the flag and the latch alone, and drops a slot of another input than the committed source unless
the record is frozen already (R135). -/
theorem Placement.freezeTaken_eq (p : Placement) :
    p.freezeTaken = { p with
      freezeRequest := none
      frozen := match p.freezeRequest with | none => p.frozen | some r => decide (r = .freeze)
      latched := if p.freezeRequest = some .freeze ∧ p.frozen = false ∧ p.holdsForeignSlot = true then none else p.latched } := by
  unfold Placement.freezeTaken
  cases hr : p.freezeRequest with
  | none => cases p; simp_all
  | some r => cases r <;> simp

/-- A view decision writes the view, the latch, the age and the last source frame number (R126). -/
theorem Placement.decided_eq {p : Placement} {m : Image} (answers : InputId → SourceAnswer) (hm : p.committed = some m) :
    p.decided answers = { p with
      view := some (viewDecision p m answers).view, latched := (viewDecision p m answers).slot, age := (viewDecision p m answers).age
      lastFrame := (viewDecision p m answers).lastFrame } := by
  simp [Placement.decided, hm]

/-- The four kinds of decision: a frozen record keeps what it holds, a SOLID one shows its fill colour, a source that is fit and fresh is
shown, and a starved one takes its substitute (R127 to R136). -/
theorem viewDecision_cases (p : Placement) (m : Image) (answers : InputId → SourceAnswer) :
    (p.frozen = true ∧ viewDecision p m answers = frozenBranch p) ∨
    (p.frozen = false ∧ m.source = .solid ∧ viewDecision p m answers = ⟨.showing, none, p.age, p.lastFrame⟩) ∨
    ∃ i, p.frozen = false ∧ m.source = .input i ∧
      ((∃ r n, (answers i).fitSlot = some (r, n) ∧ (m.holdLimit = 0 ∨ nextAge p (answers i) < m.holdLimit) ∧
          viewDecision p m answers = ⟨.showing, some r, nextAge p (answers i), nextLastFrame p (answers i)⟩) ∨
        (((answers i).fitSlot = none ∨ (m.holdLimit ≠ 0 ∧ m.holdLimit ≤ nextAge p (answers i))) ∧
          viewDecision p m answers = ⟨(substitute i m (candidate p (answers i)) answers).1,
            (substitute i m (candidate p (answers i)) answers).2, nextAge p (answers i), nextLastFrame p (answers i)⟩)) := by
  cases hfrozen : p.frozen with
  | true => exact .inl ⟨rfl, by simp [viewDecision, hfrozen]⟩
  | false =>
    right
    cases hsource : m.source with
    | solid => exact .inl ⟨rfl, rfl, by simp [viewDecision, hfrozen, hsource]⟩
    | input i =>
      refine .inr ⟨i, rfl, rfl, ?_⟩
      have hdecision : viewDecision p m answers = inputBranch p m i answers := by simp [viewDecision, hfrozen, hsource]
      rw [hdecision]
      unfold inputBranch
      dsimp only
      cases hfit : (answers i).fitSlot with
      | none => exact .inr ⟨.inl rfl, by simp [starved, hfit]⟩
      | some x =>
        obtain ⟨r, n⟩ := x
        by_cases hstale : m.holdLimit ≠ 0 ∧ m.holdLimit ≤ nextAge p (answers i)
        · exact .inr ⟨.inr hstale, by simp [starved, hfit, hstale.1, hstale.2]⟩
        · refine .inl ⟨r, n, rfl, by omega, ?_⟩
          have hnot : starved m (answers i) (nextAge p (answers i)) = false := by
            simp only [starved, hfit, Option.isNone_some, Bool.false_or, Bool.and_eq_false_iff, bne_eq_false_iff_eq, decide_eq_false_iff_not]
            omega
          simp [hnot, candidate, hfit]

/-- The substitutes by policy: a held slot of the source, the alternate source's latest slot, or none (R131 to R134). -/
theorem substitute_cases {i : InputId} {m : Image} {held : Option SlotRef} {answers : InputId → SourceAnswer} :
    (m.policy = .hold ∧ ∃ r, held = some r ∧ r.input = i ∧ substitute i m held answers = (.holding, some r)) ∨
    (m.policy = .alternate ∧ ∃ j r n, m.alternate = some j ∧ (answers j).fitSlot = some (r, n) ∧
      substitute i m held answers = (.alternate, some r)) ∨
    (m.policy = .hide ∧ substitute i m held answers = (.hidden, none)) ∨
    (((m.policy = .hold ∧ ∀ r, held = some r → r.input ≠ i) ∨ m.policy = .fill ∨
      (m.policy = .alternate ∧ ∀ j, m.alternate = some j → (answers j).fitSlot = none)) ∧
      substitute i m held answers = (.filled, none)) := by
  unfold substitute
  cases hp : m.policy with
  | hold =>
    cases held with
    | none => simp
    | some r => by_cases hr : r.input = i <;> simp [hr]
  | fill => simp
  | alternate =>
    cases ha : m.alternate with
    | none => simp
    | some j =>
      cases hf : (answers j).fitSlot with
      | none => simp [hf]
      | some x => exact .inr (.inl ⟨rfl, j, x.1, x.2, rfl, hf, by simp [hf]⟩)
  | hide => simp

end Sys2Proof.Machine

namespace Sys2Proof.Safety

open Sys2Proof.Machine

/-! ### NEW records -/

/-- What NewLaw says of one record (R3, R12, R21, R22). -/
def NewRecord (p : Placement) : Prop :=
  p.committed = none →
    p.retireStaged = false ∧ p.frozen = false ∧ p.freezeRequest = none ∧ p.view = none ∧ p.latched = none ∧ p.joinPosition = none ∧
    p.age = 0 ∧ p.lastFrame = 0 ∧ p.liveSince = none

theorem newLaw_iff {s : State} : NewLaw s ↔ ∀ h p, s.placement h = some p → NewRecord p :=
  forall_congr' fun _ => forall_congr' fun _ => by rw [Option.mem_def, NewRecord]

/-- A property that holds of every LIVE record needs no more of a stage that leaves a record LIVE. -/
theorem NewRecord.of_live {p : Placement} (h : p.committed ≠ none) : NewRecord p := fun hn => absurd hn h

theorem NewRecord.move {s : State} {c : Instr} {b : Option Placement} {q : Placement} (h : RecordMove s c b (some q))
    (hb : ∀ p, b = some p → NewRecord p) : NewRecord q := by
  cases h with
  | same => exact hb q rfl
  | opened => exact fun _ => ⟨rfl, rfl, rfl, rfl, rfl, rfl, rfl, rfl, rfl⟩
  | @amended p => exact hb p rfl
  | retired _ hlive => exact .of_live hlive
  | armed named p =>
    unfold armRecord
    split
    · exact hb p rfl
    · exact hb p rfl
  | requested r _ hlive => exact .of_live hlive
  | disarmed p => exact hb p rfl

theorem newRecord_kept : KeptByStages NewRecord where
  apply n p q _ hq := by
    obtain ⟨-, -, -, hlive, -⟩ := Placement.applied_eq_some hq
    exact .of_live (by simp [hlive])
  join p j hlive _ := .of_live hlive
  choice p m i _ _ hm _ := .of_live (by simp [Placement.chosen_eq i hm])
  freeze p hlive _ := .of_live (by simpa [Placement.freezeTaken_eq] using hlive)
  decide answers p _ hlive _ := by
    obtain ⟨m, hm⟩ := Option.ne_none_iff_exists'.1 hlive
    exact .of_live (by simp [Placement.decided_eq answers hm, hm])

/-- Every row keeps what a NEW record is (R3, R12). -/
theorem newLaw_effect {s t : State} {c : Instr} (h : Effect s c t) (hs : NewLaw s) : NewLaw t :=
  newLaw_iff.2 (h.keeps_records (fun _ _ => NewRecord.move) newRecord_kept (newLaw_iff.1 hs))

/-! ### Frozen records -/

/-- What FrozenSlotLaw says of one record (R136). -/
def FrozenRecord (p : Placement) : Prop := p.frozen = true → p.holdsForeignSlot = false

theorem frozenSlotLaw_iff {s : State} : FrozenSlotLaw s ↔ ∀ h p, s.placement h = some p → FrozenRecord p :=
  forall_congr' fun _ => forall_congr' fun _ => by rw [Option.mem_def, FrozenRecord]

theorem holdsForeignSlot_none {p : Placement} (h : p.latched = none) : p.holdsForeignSlot = false := by
  simp [Placement.holdsForeignSlot, h]

/-- A record holds a foreign slot exactly when its slot is of another input than its committed source (R135). -/
theorem holdsForeignSlot_eq {p : Placement} {m : Image} (hm : p.committed = some m) :
    p.holdsForeignSlot = p.latched.any fun r => decide (m.source ≠ .input r.input) := by
  unfold Placement.holdsForeignSlot
  cases p.latched with
  | none => rfl
  | some r => simp only [hm, Option.any_some]; by_cases h : m.source = .input r.input <;> simp [h]

theorem FrozenRecord.move {s : State} {c : Instr} {b : Option Placement} {q : Placement} (h : RecordMove s c b (some q))
    (hb : ∀ p, b = some p → FrozenRecord p) : FrozenRecord q := by
  cases h with
  | same => exact hb q rfl
  | opened => exact fun hf => absurd hf (by simp [Placement.opened])
  | @amended p => exact hb p rfl
  | @retired p => exact hb p rfl
  | armed named p =>
    unfold armRecord
    split
    · exact hb p rfl
    · exact hb p rfl
  | @requested p => exact hb p rfl
  | disarmed p => exact hb p rfl

theorem FrozenRecord.applied {n : Nat} {p q : Placement} (hp : FrozenRecord p) (hq : p.applied n = some q) : FrozenRecord q := by
  obtain ⟨-, -, -, hc, -, -, hfrozen, -, -, -, ⟨-, -, hl⟩ | ⟨m, hm, -, ⟨hs, hl, -⟩ | ⟨hl, -⟩⟩⟩ := Placement.applied_eq_some hq
  · exact fun _ => holdsForeignSlot_none hl
  · intro hf
    have hpf := hp (hfrozen ▸ hf)
    rw [holdsForeignSlot_eq hm] at hpf
    rw [holdsForeignSlot_eq hc, hl, ← hs]
    exact hpf
  · exact fun _ => holdsForeignSlot_none hl

theorem FrozenRecord.chosen {p : Placement} {m : Image} (i : InputId) (hp : FrozenRecord p) (hm : p.committed = some m) :
    FrozenRecord (p.chosen m i) := by
  rw [Placement.chosen_eq i hm]
  intro hf
  rw [holdsForeignSlot_eq (m := { m with source := .input i }) rfl]
  by_cases hs : m.source = .input i
  · have hpf := hp hf
    rw [holdsForeignSlot_eq hm, hs] at hpf
    simpa [hs] using hpf
  · simp [hs]

theorem FrozenRecord.freezeTaken {p : Placement} (hlive : p.committed ≠ none) (hp : FrozenRecord p) : FrozenRecord p.freezeTaken := by
  obtain ⟨m, hm⟩ := Option.ne_none_iff_exists'.1 hlive
  rw [Placement.freezeTaken_eq]
  intro hf
  refine Eq.trans (holdsForeignSlot_eq (m := m) (by exact hm)) ?_
  dsimp only at hf ⊢
  split_ifs with hdrop
  · rfl
  · rw [← holdsForeignSlot_eq hm]
    by_cases hpf : p.frozen = true
    · exact hp hpf
    · cases hr : p.freezeRequest with
      | none => simp [hr, hpf] at hf
      | some r => simp_all

theorem FrozenRecord.decided {answers : InputId → SourceAnswer} {p : Placement} (hlive : p.committed ≠ none) (hp : FrozenRecord p) :
    FrozenRecord (p.decided answers) := by
  obtain ⟨m, hm⟩ := Option.ne_none_iff_exists'.1 hlive
  rw [Placement.decided_eq answers hm]
  intro hf
  refine Eq.trans (holdsForeignSlot_eq (m := m) (by exact hm)) ?_
  have hdecision : viewDecision p m answers = frozenBranch p := by simp [viewDecision, show p.frozen = true from hf]
  rw [hdecision]
  exact (holdsForeignSlot_eq hm).symm.trans (hp hf)

theorem frozenRecord_kept : KeptByStages FrozenRecord where
  apply _ _ _ := FrozenRecord.applied
  join _ _ _ hp := hp
  choice _ _ i hp _ hm _ := hp.chosen i hm
  freeze _ := FrozenRecord.freezeTaken
  decide _ _ _ := FrozenRecord.decided

/-- Every row keeps a frozen record's slot of its committed source (R136). -/
theorem frozenSlotLaw_effect {s t : State} {c : Instr} (h : Effect s c t) (hs : FrozenSlotLaw s) : FrozenSlotLaw t :=
  frozenSlotLaw_iff.2 (h.keeps_records (fun _ _ => FrozenRecord.move) frozenRecord_kept (frozenSlotLaw_iff.1 hs))

/-! ### Views -/

/-- What ViewLaw says of one record (R134). -/
def ViewRecord (p : Placement) : Prop := ∀ m, p.committed = some m → ∀ v, p.view = some v → viewLawful p m v = true

/-- What FreshLaw says of one record (R130, R138). -/
def FreshRecord (p : Placement) : Prop :=
  ∀ m, p.committed = some m → p.view = some .showing → m.source ≠ .solid → m.holdLimit ≠ 0 → p.age < m.holdLimit

theorem viewLaw_iff {s : State} : ViewLaw s ↔ ∀ h p, s.placement h = some p → ViewRecord p := by
  simp only [ViewLaw, ViewRecord, Option.mem_def]

theorem freshLaw_iff {s : State} : FreshLaw s ↔ ∀ h p, s.placement h = some p → FreshRecord p := by
  simp only [FreshLaw, FreshRecord, Option.mem_def]

theorem ViewRecord.move {s : State} {c : Instr} {b : Option Placement} {q : Placement} (h : RecordMove s c b (some q))
    (hb : ∀ p, b = some p → ViewRecord p) : ViewRecord q := by
  obtain hnew | ⟨p, hp, hq⟩ := h.live_cases
  · exact fun m hm => absurd (hnew.symm.trans hm) (by simp)
  · have hpv := hb p hp
    rw [hq]
    intro m hm v hv
    exact (by cases v <;> rfl : viewLawful _ m v = viewLawful p m v).trans (hpv m hm v hv)

theorem FreshRecord.move {s : State} {c : Instr} {b : Option Placement} {q : Placement} (h : RecordMove s c b (some q))
    (hb : ∀ p, b = some p → FreshRecord p) : FreshRecord q := by
  obtain hnew | ⟨p, hp, hq⟩ := h.live_cases
  · exact fun m hm => absurd (hnew.symm.trans hm) (by simp)
  · have hpv := hb p hp
    rw [hq]
    exact hpv

/-- A decision gives a view that its slot agrees with, where a frozen record's slot is of its committed source (R134, R136). -/
theorem ViewRecord.decided {answers : InputId → SourceAnswer} {p : Placement} (hanswers : OwnSlots answers) (hlive : p.committed ≠ none)
    (hp : FrozenRecord p) : ViewRecord (p.decided answers) := by
  obtain ⟨m, hm⟩ := Option.ne_none_iff_exists'.1 hlive
  rw [Placement.decided_eq answers hm]
  intro m' hm' v hv
  obtain rfl := Option.some.inj (hm.symm.trans hm')
  obtain rfl := Option.some.inj hv
  obtain ⟨hf, hd⟩ | ⟨-, hs, hd⟩ | ⟨i, -, hs, ⟨r, n, hfit, -, hd⟩ | ⟨-, hd⟩⟩ := viewDecision_cases p m answers <;> rw [hd]
  · have hforeign := hp hf
    rw [holdsForeignSlot_eq hm] at hforeign
    unfold frozenBranch
    cases hl : p.latched with
    | none => rfl
    | some r =>
      simp only [hl, Option.any_some, ne_eq, decide_not, Bool.not_eq_false', decide_eq_true_eq] at hforeign
      simp [viewLawful, hforeign, hf]
  · simp [viewLawful, hs]
  · simp [viewLawful, hs, hanswers i r n hfit]
  · obtain ⟨hpol, r, -, hr, hsub⟩ | ⟨hpol, j, r, n, halt, hfit, hsub⟩ | ⟨hpol, hsub⟩ | ⟨-, hsub⟩ :=
      substitute_cases (i := i) (m := m) (held := candidate p (answers i)) (answers := answers) <;> rw [hsub]
    · simp [viewLawful, hs, hpol, hr]
    · simp [viewLawful, halt, hpol, hanswers j r n hfit]
    · simp [viewLawful, hpol]
    · simp [viewLawful]

/-- A decision that shows an input shows a frame below the hold limit (R130, R138). -/
theorem FreshRecord.decided {answers : InputId → SourceAnswer} {p : Placement} (hlive : p.committed ≠ none) :
    FreshRecord (p.decided answers) := by
  obtain ⟨m, hm⟩ := Option.ne_none_iff_exists'.1 hlive
  rw [Placement.decided_eq answers hm]
  intro m' hm' hv hsource hlimit
  obtain rfl := Option.some.inj (hm.symm.trans hm')
  have hv := Option.some.inj hv
  obtain ⟨hf, hd⟩ | ⟨-, hs, hd⟩ | ⟨i, -, hs, ⟨r, n, -, hfresh, hd⟩ | ⟨-, hd⟩⟩ := viewDecision_cases p m answers <;> simp only [hd] at hv ⊢
  · unfold frozenBranch at hv
    cases hl : p.latched <;> simp [hl] at hv
  · exact absurd hs hsource
  · exact hfresh.resolve_left hlimit
  · obtain ⟨-, r, -, -, hsub⟩ | ⟨-, j, r, n, -, -, hsub⟩ | ⟨-, hsub⟩ | ⟨-, hsub⟩ :=
      substitute_cases (i := i) (m := m) (held := candidate p (answers i)) (answers := answers) <;> simp [hsub] at hv

/-- Before the decisions a record that no decision reaches is as it was: NEW, or on another screen. -/
theorem State.beforeViews_placement_other {s : State} {sc : Screen} {n : Nat} {h : Handle} {p : Placement}
    (hp : (s.beforeViews sc n).placement h = some p) (hm : h ∉ (s.beforeViews sc n).liveList sc) :
    p.committed = none ∨ (p.screen ≠ sc ∧ s.placement h = some p) := by
  by_cases hsc : p.screen = sc
  · left
    by_contra hlive
    exact hm (State.mem_liveList_iff.2 ⟨p, hp, hsc, hlive⟩)
  · right
    refine ⟨hsc, ?_⟩
    have hfreeze : ((s.applyArmed sc n).takeChoice sc).placement h = some p := by
      have hplace : (((s.applyArmed sc n).takeChoice sc).takeFreezes sc).placement h = some p := by simpa [State.beforeViews] using hp
      rw [State.takeFreezes_placement] at hplace
      split at hplace
      · rename_i hmem
        obtain ⟨q, hq, hqs, -⟩ := State.mem_liveList_iff.1 hmem
        rw [hq] at hplace
        exact absurd ((congrArg Placement.screen (Option.some.inj hplace)).symm.trans
          ((congrArg Placement.screen q.freezeTaken_eq).trans hqs)) hsc
      · exact hplace
    have hchoice : (s.applyArmed sc n).placement h = some p := by
      obtain he | ⟨q, m, i, hq, hqs, -, hm, -, he⟩ := (s.applyArmed sc n).takeChoice_placement_cases sc h
      · exact he ▸ hfreeze
      · exact absurd ((congrArg Placement.screen (Option.some.inj (hfreeze.symm.trans he))).trans
          ((congrArg Placement.screen (Placement.chosen_eq i hm)).trans hqs)) hsc
    have hother : ∀ q, s.placement h = some q → q.screen ≠ sc := by
      intro q hq hqs
      have hafter : ∀ r, s.afterApplication sc n h = some r → r.screen = sc := by
        intro r hr
        obtain ⟨q', hq', hr⟩ := Option.bind_eq_some_iff.1 hr
        obtain rfl := Option.some.inj (hq.symm.trans hq')
        split at hr
        · exact (Placement.applied_eq_some hr).1.trans hqs
        · exact Option.some.inj hr ▸ hqs
      obtain he | ⟨r, j, hr, -, he⟩ := s.applyArmed_placement_cases sc n h
      · exact hsc (hafter p (he ▸ hchoice))
      · exact hsc ((congrArg Placement.screen (Option.some.inj (hchoice.symm.trans he))).trans (hafter r hr))
    rw [← State.applyArmed_placement_other n hother, hchoice]

/-- What holds of every NEW record and of every record just decided holds after a composer's frame start, if it held of every record of
another screen. `R` is what the stages before the decisions keep for them. -/
theorem State.composerStart_decides {Q R : Placement → Prop} {s : State} {sc : Screen} {n : Nat} (hR : KeptByStages R)
    (hnew : ∀ p, p.committed = none → Q p)
    (hdecide : ∀ answers p, OwnSlots answers → p.committed ≠ none → R p → Q (p.decided answers))
    (hr : ∀ h p, s.placement h = some p → R p) (hs : ∀ h p, s.placement h = some p → Q p) (h : Handle) (p : Placement)
    (hp : (s.composerStart sc n).placement h = some p) : Q p := by
  have hbefore := State.beforeViews_keeps (sc := sc) (frame := n) hR.toKeptBeforeViews hr
  rw [State.composerStart_placement] at hp
  split at hp
  · rename_i hmem
    obtain ⟨q, hq, -, hlive⟩ := State.mem_liveList_iff.1 hmem
    rw [hq] at hp
    exact Option.some.inj hp ▸ hdecide _ q (State.answer_ownSlots _) hlive (hbefore h q hq)
  · rename_i hmem
    obtain hn | ⟨-, hsp⟩ := State.beforeViews_placement_other hp hmem
    · exact hnew p hn
    · exact hs h p hsp

/-- What every move keeps, and what holds of every NEW record and every record just decided, is kept by every row. -/
theorem Effect.keeps_decided {Q R : Placement → Prop} {s t : State} {c : Instr} (h : Effect s c t) (hR : KeptByStages R)
    (hmove : ∀ b q, RecordMove s c b (some q) → (∀ p, b = some p → Q p) → Q q) (hnew : ∀ p, p.committed = none → Q p)
    (hdecide : ∀ answers p, OwnSlots answers → p.committed ≠ none → R p → Q (p.decided answers))
    (hr : ∀ h p, s.placement h = some p → R p) (hs : ∀ h p, s.placement h = some p → Q p) (k : Handle) (q : Placement)
    (hq : t.placement k = some q) : Q q := by
  obtain ⟨d, rfl, -⟩ | ⟨-, hnone⟩ | hmoves := h.record_cases
  · have hwork : ∀ h p, (s.domainWork d).placement h = some p → R p := fun h p hp => hr h p (by simpa using hp)
    rw [State.domainStart_placement] at hq
    refine State.composerStart_decides hR hnew hdecide (State.composerStart_keeps hR hwork) ?_ k q hq
    exact State.composerStart_decides hR hnew hdecide hwork fun h p hp => hs h p (by simpa using hp)
  · rw [hnone] at hq; cases hq
  · exact hmove _ q (hq ▸ hmoves k) fun p hp => hs k p hp

/-- Every row keeps views and slots in agreement (R134, R136). -/
theorem viewLaw_effect {s t : State} {c : Instr} (h : Effect s c t) (hf : FrozenSlotLaw s) (hs : ViewLaw s) : ViewLaw t :=
  viewLaw_iff.2 (Effect.keeps_decided h frozenRecord_kept (fun _ _ => ViewRecord.move)
    (fun p hn m hm => absurd (hn.symm.trans hm) (by simp)) (fun _ _ => ViewRecord.decided) (frozenSlotLaw_iff.1 hf) (viewLaw_iff.1 hs))

/-- Every row keeps what is shown fresh (R130, R138). -/
theorem freshLaw_effect {s t : State} {c : Instr} (h : Effect s c t) (hs : FreshLaw s) : FreshLaw t :=
  freshLaw_iff.2 (Effect.keeps_decided (R := fun _ => True) h ⟨⟨fun _ _ _ _ _ => trivial, fun _ _ _ _ => trivial,
      fun _ _ _ _ _ _ _ => trivial, fun _ _ _ => trivial⟩, fun _ _ _ _ _ => trivial⟩ (fun _ _ => FreshRecord.move)
    (fun p hn m hm => absurd (hn.symm.trans hm) (by simp)) (fun _ _ _ hlive _ => FreshRecord.decided hlive) (fun _ _ _ => trivial)
    (freshLaw_iff.1 hs))

/-- Settles O59: each law is one of single records, kept by every move of a record and by every stage of a frame start. -/
theorem stepKeepsViewsFresh : Obligations.StepKeepsViewsFresh := by
  intro s t hstep
  have hsame : ∀ {Q : Placement → Prop} {s t : State}, s.SameBlocks t → (∀ h p, s.placement h = some p → Q p) →
      ∀ h p, t.placement h = some p → Q p := fun hst hs h p hp => hs h p (hst.placement h ▸ hp)
  have hfrozen : ∀ {s t : State}, s.SameBlocks t → FrozenSlotLaw s → FrozenSlotLaw t := fun hst hs =>
    frozenSlotLaw_iff.2 (hsame hst (frozenSlotLaw_iff.1 hs))
  have hview : ∀ {s t : State}, s.SameBlocks t → ViewLaw s → ViewLaw t := fun hst hs => viewLaw_iff.2 (hsame hst (viewLaw_iff.1 hs))
  refine ⟨step_keeps (fun _ _ => hfrozen) (fun _ _ _ => frozenSlotLaw_effect) hstep, fun hf hv => ?_,
    step_keeps (fun _ _ hst hs => freshLaw_iff.2 (hsame hst (freshLaw_iff.1 hs))) (fun _ _ _ => freshLaw_effect) hstep⟩
  exact (step_keeps (P := fun s => FrozenSlotLaw s ∧ ViewLaw s) (fun _ _ hst hs => ⟨hfrozen hst hs.1, hview hst hs.2⟩)
    (fun _ _ _ h hs => ⟨frozenSlotLaw_effect h hs.1, viewLaw_effect h hs.1 hs.2⟩) hstep ⟨hf, hv⟩).2

end Sys2Proof.Safety
end


section
/-! SUPPORT. The drawing order of a screen: what the live lists and the admission checks read of the records, the order by layer that application
rebuilds and COMMIT predicts, and the three admission checks by what they find (R27, R28, R31 to R33, R43). -/

namespace Sys2Proof.Machine

/-! ### Lists by layer -/

/-- One layer after the other, the members of each in the order of the list (R28). -/
theorem flatMap_filter_perm {α : Type} (layer : α → Nat) (l : List α) (n : Nat) :
    ((List.range n).flatMap fun k => l.filter fun x => layer x = k).Perm (l.filter fun x => layer x < n) := by
  induction n with
  | zero => simp
  | succ n ih =>
    rw [List.range_succ, List.flatMap_append]
    refine (ih.append_right _).trans ?_
    simp only [List.flatMap_cons, List.flatMap_nil, List.append_nil]
    have hsplit := List.filter_append_perm (fun x => decide (layer x < n)) (l.filter fun x => layer x < n + 1)
    simp only [List.filter_filter] at hsplit
    refine List.Perm.trans (.of_eq ?_) hsplit
    congr 1
    · exact List.filter_congr fun x _ => by rw [← Bool.decide_and, decide_eq_decide]; omega
    · exact List.filter_congr fun x _ => by rw [← decide_not, ← Bool.decide_and, decide_eq_decide]; omega

/-- Ordering by layer loses nothing whose layer is one of 0 to 7 (R28). -/
theorem layered_perm {α : Type} {layer : α → Nat} {stayers movers : List α} (hs : ∀ x ∈ stayers, layer x < 8)
    (hm : ∀ x ∈ movers, layer x < 8) : (layered layer stayers movers).Perm (stayers ++ movers) := by
  unfold layered
  refine (List.flatMap_append_perm _ _ _).symm.trans ?_
  refine ((flatMap_filter_perm layer stayers 8).append (flatMap_filter_perm layer movers 8)).trans (.of_eq ?_)
  rw [List.filter_eq_self.2 fun x hx => by simpa using hs x hx, List.filter_eq_self.2 fun x hx => by simpa using hm x hx]

/-- The layers ascend in a list ordered by layer (R28, R43). -/
theorem layered_sorted {α : Type} (layer : α → Nat) (stayers movers : List α) :
    ((layered layer stayers movers).map layer).Pairwise (· ≤ ·) := by
  unfold layered
  rw [List.map_flatMap, List.pairwise_flatMap]
  have hlayer : ∀ k n, k ∈ ((stayers.filter fun x => layer x = n) ++ movers.filter fun x => layer x = n).map layer → k = n := by
    intro k n hk
    simp only [List.map_append, List.mem_append, List.mem_map, List.mem_filter, decide_eq_true_eq] at hk
    obtain ⟨x, ⟨-, hx⟩, rfl⟩ | ⟨x, ⟨-, hx⟩, rfl⟩ := hk <;> exact hx
  refine ⟨fun n _ => List.pairwise_of_forall_mem_list fun a ha b hb => ?_, List.pairwise_lt_range.imp fun hmn a ha b hb => ?_⟩
  · exact ((hlayer a n ha).trans (hlayer b n hb).symm).le
  · rw [hlayer a _ ha, hlayer b _ hb]; exact hmn.le

/-- A list whose layers ascend already is in order (R43). -/
theorem filter_lt_succ_of_sorted {α : Type} {layer : α → Nat} (n : Nat) {l : List α} (h : (l.map layer).Pairwise (· ≤ ·)) :
    (l.filter fun x => layer x < n + 1) = (l.filter fun x => layer x < n) ++ l.filter fun x => layer x = n := by
  simp only [Nat.lt_add_one_iff]
  induction l with
  | nil => rfl
  | cons a l ih =>
    obtain ⟨ha, hl⟩ := List.pairwise_cons.1 h
    have hge : ∀ x ∈ l, layer a ≤ layer x := fun x hx => ha _ (List.mem_map_of_mem hx)
    by_cases hlt : layer a < n
    · simp [hlt, hlt.le, hlt.ne, ih hl]
    · have hnone : (l.filter fun x => layer x < n) = [] := List.filter_eq_nil_iff.2 fun x hx => by
        have := hge x hx; simp; omega
      rw [hnone, List.nil_append] at ih
      by_cases heq : layer a = n
      · simp only [List.filter_cons, heq, ih hl, hnone]; simp
      · have : ¬ layer a ≤ n := by omega
        simp only [List.filter_cons, heq, hlt, this, ih hl, hnone]; simp

theorem layered_of_sorted {α : Type} {layer : α → Nat} {l : List α} (h : (l.map layer).Pairwise (· ≤ ·)) (hlt : ∀ x ∈ l, layer x < 8) :
    layered layer l [] = l := by
  have key : ∀ n, ((List.range n).flatMap fun k => l.filter fun x => layer x = k) = l.filter fun x => layer x < n := by
    intro n
    induction n with
    | zero => simp
    | succ n ih => rw [List.range_succ, List.flatMap_append, ih, filter_lt_succ_of_sorted n h]; simp
  unfold layered
  simp only [List.filter_nil, List.append_nil]
  rw [key, List.filter_eq_self.2 fun x hx => by simpa using hlt x hx]

/-- Ordering by layer goes with a partial map that keeps the layer. -/
theorem layered_filterMap {α β : Type} {layer : α → Nat} {layer' : β → Nat} {f : α → Option β} {stayers movers : List α}
    (hs : ∀ x ∈ stayers, ∀ y, f x = some y → layer' y = layer x) (hm : ∀ x ∈ movers, ∀ y, f x = some y → layer' y = layer x) :
    (layered layer stayers movers).filterMap f = layered layer' (stayers.filterMap f) (movers.filterMap f) := by
  have hgroup : ∀ l : List α, (∀ x ∈ l, ∀ y, f x = some y → layer' y = layer x) → ∀ n,
      (l.filter fun x => layer x = n).filterMap f = (l.filterMap f).filter fun y => layer' y = n := by
    intro l hl n
    rw [List.filterMap_filter, List.filter_filterMap]
    refine List.filterMap_congr fun x hx => ?_
    cases hf : f x with
    | none => simp
    | some y => simp [hl x hx y hf, Option.filter_some]
  unfold layered
  rw [List.filterMap_flatMap]
  refine List.flatMap_congr fun n _ => ?_
  rw [List.filterMap_append, hgroup stayers hs, hgroup movers hm]

/-! ### Live lists -/

/-- Sorting reads the order of the members alone. -/
theorem insertionSort_congr {α : Type} {r q : α → α → Prop} [DecidableRel r] [DecidableRel q] {l : List α}
    (h : ∀ a ∈ l, ∀ b ∈ l, r a b ↔ q a b) : l.insertionSort r = l.insertionSort q := by
  have := List.map_insertionSort (r := r) (s := q) id l h
  simpa using this

/-- A live list depends on which records are LIVE on the screen and on their join positions alone (R12). -/
theorem State.liveList_congr {s t : State} {sc : Screen}
    (h : ∀ k j, (∃ q, t.placement k = some q ∧ q.screen = sc ∧ q.committed ≠ none ∧ q.joinPosition = j) ↔
      ∃ p, s.placement k = some p ∧ p.screen = sc ∧ p.committed ≠ none ∧ p.joinPosition = j) : t.liveList sc = s.liveList sc := by
  have hlive : ∀ (u : State) k, u.onScreen sc Placement.isLive k = true ↔
      ∃ j p, u.placement k = some p ∧ p.screen = sc ∧ p.committed ≠ none ∧ p.joinPosition = j := by
    intro u k
    rw [State.onScreen_eq_true]
    simp only [Placement.isLive, Option.isSome_iff_ne_none]
    constructor
    · rintro ⟨p, hp, hsc, hc⟩; exact ⟨_, p, hp, hsc, hc, rfl⟩
    · rintro ⟨-, p, hp, hsc, hc, -⟩; exact ⟨p, hp, hsc, hc⟩
  have hhandles : t.handlesOn sc Placement.isLive = s.handlesOn sc Placement.isLive := by
    refine List.filter_congr fun k _ => Bool.eq_iff_iff.2 ?_
    rw [hlive, hlive]
    exact exists_congr (h k)
  have hkey : ∀ k ∈ s.handlesOn sc Placement.isLive, t.joinKey k = s.joinKey k := by
    intro k hk
    obtain ⟨j, p, hp, hsc, hc, hj⟩ := (hlive s k).1 (List.mem_filter.1 hk).2
    obtain ⟨q, hq, -, -, hqj⟩ := (h k j).2 ⟨p, hp, hsc, hc, hj⟩
    simp [State.joinKey, hp, hq, hj, hqj]
  unfold State.liveList
  rw [hhandles]
  exact insertionSort_congr fun a ha b hb => by rw [hkey a ha, hkey b hb]

/-- A list of the LIVE records of a screen in strictly rising join positions is its live list (R12, R43). -/
theorem State.liveList_eq {s : State} {sc : Screen} {l : List Handle}
    (hmem : ∀ h, h ∈ l ↔ ∃ p, s.placement h = some p ∧ p.screen = sc ∧ p.committed ≠ none)
    (hsorted : l.Pairwise fun h k => s.joinKey h < s.joinKey k) : s.liveList sc = l := by
  have hnodup : l.Nodup := hsorted.imp fun h e => by simp [e] at h
  have hperm : (s.liveList sc).Perm l := by
    rw [List.perm_ext_iff_of_nodup (s.liveList_nodup sc) hnodup]
    exact fun h => State.mem_liveList_iff.trans (hmem h).symm
  refine hperm.eq_of_pairwise (le := fun h k => s.joinKey h ≤ s.joinKey k) (fun a b ha hb hab hba => ?_) (s.liveList_sorted sc)
    (hsorted.imp le_of_lt)
  have hkeys : (l.map s.joinKey).Nodup := List.pairwise_map.2 (hsorted.imp fun h => h.ne)
  exact List.inj_on_of_nodup_map hkeys (hperm.mem_iff.1 ha) hb (Nat.le_antisymm hab hba)

end Sys2Proof.Machine
end


section
/-! SUPPORT. The four checks of an image by what they say (R13 to R17), and that a choice of the list of a passing image passes too (R47). -/

namespace Sys2Proof.Machine

/-! ### The four steps -/

/-- An image passes when all four steps do (R13). -/
theorem imageFault_eq_none {config : ScreenConfig} {geometry : InputId → Nat × Nat} {sc : Screen} {cls : PlacementClass} {sel : Bool}
    {m : Image} : imageFault config geometry sc cls sel m = none ↔
      fieldsOk config sel m = true ∧ safetyOk sc cls sel m = true ∧ boundsOk geometry m = true ∧ scalesOk geometry m = true := by
  unfold imageFault
  split_ifs <;> simp_all

theorem fieldsOk_eq_true {config : ScreenConfig} {sel : Bool} {m : Image} : fieldsOk config sel m = true ↔
    sourceRectOk sel m = true ∧ targetOk config m.target = true ∧ m.layer ≤ 7 ∧ m.holdLimit ≤ 15 ∧ alternateOk m = true ∧
    choicesOk sel m = true := by
  simp [fieldsOk, and_assoc]

theorem targetOk_eq_true {config : ScreenConfig} {r : Rect} : targetOk config r = true ↔
    1 ≤ r.w ∧ 1 ≤ r.h ∧ r.x + r.w ≤ config.width ∧ r.y + r.h ≤ config.height := by
  simp [targetOk, and_assoc]

theorem alternateOk_some {m : Image} {i : InputId} (h : alternateOk m = true) (hi : m.alternate = some i) :
    m.policy = .alternate ∧ m.source ≠ .input i ∧ i ∉ m.choiceList := by
  unfold alternateOk at h
  rw [hi] at h
  cases hp : m.policy <;> simp_all

theorem choicesOk_true {m : Image} : choicesOk true m = true ↔
    ∃ l, m.choices = some l ∧ 1 ≤ l.length ∧ l.length ≤ 8 ∧ ∃ i ∈ l, m.source = .input i := by
  unfold choicesOk
  cases m.choices <;> simp [and_assoc]

theorem sourceRectOk_true {m : Image} : sourceRectOk true m = true ↔ m.sourceRect = none := by
  unfold sourceRectOk
  cases m.source <;> simp

theorem safetyOk_safety {sc : Screen} {sel : Bool} {m : Image} (h : safetyOk sc .safety sel m = true) :
    isRearScreen sc = false ∧ m.holdLimit ≠ 0 ∧ m.policy ≠ .hold ∧ m.policy ≠ .hide ∧ 256 ≤ m.opacity ∧ m.blend = .over ∧
    sel = false := by
  unfold safetyOk at h
  cases hb : m.blend <;> simp_all

theorem safetyOk_selectable {sc : Screen} {cls : PlacementClass} {m : Image} (h : safetyOk sc cls true m = true) :
    isRearScreen sc = true := by
  simpa [safetyOk] using (Bool.and_eq_true_iff.1 h).2

theorem scaleOk_eq_true {ws hs tw th : Nat} : scaleOk ws hs tw th = true ↔ ws ≤ 4 * tw ∧ tw ≤ 8 * ws ∧ hs ≤ 4 * th ∧ th ≤ 8 * hs := by
  simp [scaleOk, and_assoc]

/-- The layer of a passing image is one of 0 to 7 (R8). -/
theorem State.checkImage_layer {s : State} {sc : Screen} {cls : PlacementClass} {sel : Bool} {m : Image}
    (h : s.checkImage sc cls sel m = none) : m.layer < 8 := by
  obtain ⟨hfields, -, -, -⟩ := imageFault_eq_none.1 h
  obtain ⟨-, -, hlayer, -⟩ := fieldsOk_eq_true.1 hfields
  exact Nat.lt_succ_of_le hlayer

/-- An entry of the choice list of a passing selectable image may be its source (R11, R47). -/
theorem imageFault_choose {config : ScreenConfig} {geometry : InputId → Nat × Nat} {sc : Screen} {cls : PlacementClass} {m : Image}
    {i : InputId} (h : imageFault config geometry sc cls true m = none) (hi : i ∈ m.choiceList) :
    imageFault config geometry sc cls true { m with source := .input i } = none := by
  obtain ⟨hfields, hsafety, hbounds, hscales⟩ := imageFault_eq_none.1 h
  obtain ⟨hrect, htarget, hlayer, hhold, halternate, hchoices⟩ := fieldsOk_eq_true.1 hfields
  obtain ⟨l, hl, h1, h8, -⟩ := choicesOk_true.1 hchoices
  have hnone := sourceRectOk_true.1 hrect
  have hil : i ∈ l := by simpa [Image.choiceList, hl] using hi
  have halternate' : alternateOk { m with source := .input i } = true := by
    unfold alternateOk at halternate ⊢
    cases hp : m.policy <;> cases ha : m.alternate <;> simp_all [Image.choiceList]
    rintro rfl
    exact halternate.2 hil
  refine imageFault_eq_none.2 ⟨fieldsOk_eq_true.2 ⟨sourceRectOk_true.2 hnone, htarget, hlayer, hhold, halternate',
    choicesOk_true.2 ⟨l, hl, h1, h8, i, hil, rfl⟩⟩, hsafety, ?_, hscales⟩
  simp [boundsOk, hnone]

/-! ### The image a body carries -/

/-- A body gives an opacity of at most 256 (R8). -/
theorem Image.write_opacity {m n : Image} {f : RawField} (h : m.write f = some n) (hm : m.opacity ≤ 256) : n.opacity ≤ 256 := by
  cases f with
  | opacity v => obtain rfl := Option.some.inj h; exact Nat.min_le_left ..
  | sourceRect | targetRect | layer | fill | holdLimit | fixedScreen | fixedClass | fixedSelectable =>
    obtain rfl := Option.some.inj h; exact hm
  | source | blend | key | policy | alternate | choices =>
    obtain ⟨_, -, rfl⟩ := Option.map_eq_some_iff.1 h; exact hm

/-- What every field written keeps, a list of fields written keeps. -/
theorem Image.writeAll_keeps {P : Image → Prop} (hwrite : ∀ {m n f}, Image.write m f = some n → P m → P n) {fs : List RawField} {m n : Image}
    (h : m.writeAll fs = some n) (hm : P m) : P n := by
  induction fs generalizing m with
  | nil => exact Option.some.inj h ▸ hm
  | cons f fs ih =>
    unfold Image.writeAll at h
    split at h
    · rename_i hf
      exact ih h (hwrite hf hm)
    · cases h

theorem Image.writeAll_opacity {fs : List RawField} {m n : Image} (h : m.writeAll fs = some n) (hm : m.opacity ≤ 256) : n.opacity ≤ 256 :=
  Image.writeAll_keeps Image.write_opacity h hm

end Sys2Proof.Machine

namespace Sys2Proof.Safety
open Sys2Proof.Machine

/-- Settles O10: each promise is one clause of one of the four steps. -/
theorem passedImagesKeepThePromises : Obligations.PassedImagesKeepThePromises := by
  intro s raw m sc cls sel himage hcheck
  obtain ⟨hfields, hsafety, hbounds, hscales⟩ := imageFault_eq_none.1 hcheck
  obtain ⟨hrect, htarget, hlayer, hhold, halternate, hchoices⟩ := fieldsOk_eq_true.1 hfields
  have hopacity : m.opacity ≤ 256 := Image.writeAll_opacity himage (Nat.zero_le _)
  refine ⟨?_, ?_, fun i hi => ?_, targetOk_eq_true.1 htarget, hlayer, hopacity, fun i r hi hr => ?_⟩
  · rintro rfl
    obtain ⟨hrear, hlimit, hnohold, hnohide, hopaque, hover, hsel⟩ := safetyOk_safety hsafety
    refine ⟨hrear, Nat.le_antisymm hopacity hopaque, hover, Nat.pos_of_ne_zero hlimit, hhold, ?_, hsel⟩
    cases hp : m.policy <;> simp_all
  · rintro rfl
    obtain ⟨l, hl, h1, h8, i, hi, hsource⟩ := choicesOk_true.1 hchoices
    exact ⟨safetyOk_selectable hsafety, sourceRectOk_true.1 hrect, l, i, hl, h1, h8, hi, hsource⟩
  · obtain ⟨hpolicy, hsource, hmem⟩ := alternateOk_some halternate hi
    exact ⟨hpolicy, hsource, fun l hl => by simpa [Image.choiceList, hl] using hmem⟩
  · have hframe : r.x + r.w ≤ (s.input i).config.width ∧ r.y + r.h ≤ (s.input i).config.height := by
      simp only [boundsOk, hi, hr, Bool.and_eq_true, decide_eq_true_eq] at hbounds
      exact hbounds
    have hscale : scaleOk r.w r.h m.target.w m.target.h = true := by
      simp only [scalesOk, hr, Bool.and_eq_true] at hscales
      exact hscales.1.1
    exact ⟨hframe.1, hframe.2, scaleOk_eq_true.1 hscale⟩

end Sys2Proof.Safety
end


section
/-! SUPPORT. What the admission checks and the drawing order read of the records of a screen, and the laws of section 2.2 in those terms. -/

namespace Sys2Proof.Machine
open Sys2Proof.Safety

/-! ### What is seen of a record -/

/-- What the drawing order and the admission checks read of a member: its handle and fixed fields, and its image's target and layer (R27, R28,
R31 to R33). -/
@[ext] structure Seen where
  handle : Handle
  cls : PlacementClass
  selectable : Bool
  target : Rect
  layer : Nat

def Placement.seen (h : Handle) (p : Placement) (m : Image) : Seen := ⟨h, p.cls, p.selectable, m.target, m.layer⟩

def Candidate.seen (c : Candidate) : Seen := c.placement.seen c.handle c.image

/-- A record of the screen under a choice of image (R27). -/
def State.seen (s : State) (sc : Screen) (image : Placement → Option Image) (h : Handle) : Option Seen :=
  (s.placement h).bind fun p => if p.screen = sc then (image p).map (p.seen h) else none

/-- A LIVE record of the screen in its committed image, with its join position (R12). -/
def State.standing (s : State) (sc : Screen) (h : Handle) : Option (Option Nat × Seen) :=
  (s.placement h).bind fun p => if p.screen = sc then p.committed.map fun m => (p.joinPosition, p.seen h m) else none

theorem State.seen_eq_some {s : State} {sc : Screen} {image : Placement → Option Image} {h : Handle} {x : Seen} :
    s.seen sc image h = some x ↔ ∃ p m, s.placement h = some p ∧ p.screen = sc ∧ image p = some m ∧ x = p.seen h m := by
  unfold State.seen
  cases s.placement h <;> simp [eq_comm]

theorem State.standing_eq_some {s : State} {sc : Screen} {h : Handle} {j : Option Nat} {x : Seen} :
    s.standing sc h = some (j, x) ↔
      ∃ p m, s.placement h = some p ∧ p.screen = sc ∧ p.committed = some m ∧ p.joinPosition = j ∧ x = p.seen h m := by
  unfold State.standing
  cases s.placement h <;> simp [eq_comm]

theorem State.seen_handle {s : State} {sc : Screen} {image : Placement → Option Image} {h : Handle} {x : Seen}
    (hx : s.seen sc image h = some x) : x.handle = h := by
  obtain ⟨p, m, -, -, -, rfl⟩ := State.seen_eq_some.1 hx
  rfl

theorem State.seen_committed (s : State) (sc : Screen) (h : Handle) :
    s.seen sc Placement.committed h = (s.standing sc h).map Prod.snd := by
  unfold State.seen State.standing
  cases s.placement h with
  | none => rfl
  | some p => by_cases hsc : p.screen = sc <;> simp [hsc, Function.comp_def]

/-- The member kept its layer: it is LIVE with the committed layer it has in the set (R28). -/
def State.stays (s : State) (sc : Screen) (x : Seen) : Bool :=
  (s.seen sc Placement.committed x.handle).any fun y => decide (x.layer = y.layer)

/-- The drawing order of a screen under a choice of image (R28, R43). -/
def State.order (s : State) (sc : Screen) (image : Placement → Option Image) : List Seen :=
  layered Seen.layer (((s.liveList sc).filterMap (s.seen sc image)).filter (s.stays sc))
    ((allHandles.filterMap (s.seen sc image)).filter fun x => !s.stays sc x)

/-- The live list of a screen with the committed images (R43). -/
def State.drawn (s : State) (sc : Screen) : List Seen := (s.liveList sc).filterMap (s.seen sc Placement.committed)

/-- The image the would-be live set takes for a record (R27). -/
def wouldImage (p : Placement) : Option Image := if p.retireStaged then none else some p.chosenImage

/-! ### The sets of the admission checks in these terms -/

theorem layered_map {α β : Type} {layer : α → Nat} {layer' : β → Nat} {f : α → β} (hf : ∀ x, layer' (f x) = layer x) (stayers movers : List α) :
    (layered layer stayers movers).map f = layered layer' (stayers.map f) (movers.map f) := by
  simp only [← List.filterMap_eq_map']
  exact layered_filterMap (fun x _ y hy => Option.some.inj hy ▸ hf x) fun x _ y hy => Option.some.inj hy ▸ hf x

theorem mem_members {s : State} {image : Placement → Option Image} {hs : List Handle} {c : Candidate} :
    c ∈ members s image hs ↔ c.handle ∈ hs ∧ s.placement c.handle = some c.placement ∧ image c.placement = some c.image := by
  unfold members
  rw [List.mem_filterMap]
  constructor
  · rintro ⟨h, hh, hc⟩
    split at hc
    · rename_i p hp
      obtain ⟨m, hm, rfl⟩ := Option.map_eq_some_iff.1 hc
      exact ⟨hh, hp, hm⟩
    · cases hc
  · rintro ⟨hh, hp, hm⟩
    exact ⟨c.handle, hh, by simp [hp, hm]⟩

theorem map_seen_members {s : State} {sc : Screen} (image : Placement → Option Image) {hs : List Handle}
    (hsc : ∀ h ∈ hs, ∀ p, s.placement h = some p → p.screen = sc) :
    (members s image hs).map Candidate.seen = hs.filterMap (s.seen sc image) := by
  unfold members
  rw [List.map_filterMap]
  refine List.filterMap_congr fun h hh => ?_
  unfold State.seen
  cases hp : s.placement h with
  | none => rfl
  | some p => simp [hsc h hh p hp, Candidate.seen, Function.comp_def]

theorem map_seen_members_all (s : State) (sc : Screen) (image : Placement → Option Image) :
    (members s image (s.handlesOn sc fun _ => true)).map Candidate.seen = allHandles.filterMap (s.seen sc image) := by
  rw [map_seen_members (sc := sc) image fun h hh p hp => ?_]
  · unfold State.handlesOn
    rw [List.filterMap_filter]
    refine List.filterMap_congr fun h _ => ?_
    unfold State.seen State.onScreen
    cases s.placement h with
    | none => rfl
    | some p => by_cases hsc : p.screen = sc <;> simp [hsc]
  · obtain ⟨q, hq, hsc, -⟩ := State.mem_handlesOn.1 hh
    exact Option.some.inj (hp.symm.trans hq) ▸ hsc

theorem liveList_screen {s : State} {sc : Screen} {h : Handle} (hh : h ∈ s.liveList sc) {p : Placement} (hp : s.placement h = some p) :
    p.screen = sc := by
  obtain ⟨q, hq, hsc, -⟩ := State.mem_liveList_iff.1 hh
  exact Option.some.inj (hp.symm.trans hq) ▸ hsc

theorem isStayer_eq {s : State} {sc : Screen} {c : Candidate} (hp : s.placement c.handle = some c.placement)
    (hsc : c.placement.screen = sc) : c.isStayer = s.stays sc c.seen := by
  have hseen : s.seen sc Placement.committed c.handle = c.placement.committed.map (c.placement.seen c.handle) := by
    simp [State.seen, hp, hsc]
  unfold Candidate.isStayer State.stays
  rw [show c.seen.handle = c.handle from rfl, hseen]
  cases c.placement.committed <;> rfl

/-- A set laid out by stayers and movers, as COMMIT lays out the would-be live set, is the order of what is seen (R28, R43). -/
theorem map_seen_layered (s : State) (sc : Screen) (image : Placement → Option Image) :
    (layered (fun c => c.image.layer) ((members s image (s.liveList sc)).filter Candidate.isStayer)
      ((members s image (s.handlesOn sc fun _ => true)).filter fun c => !c.isStayer)).map Candidate.seen = s.order sc image := by
  have hstays : ∀ hs : List Handle, (∀ h ∈ hs, ∀ p, s.placement h = some p → p.screen = sc) →
      ∀ c ∈ members s image hs, c.isStayer = s.stays sc c.seen := by
    intro hs hsc c hc
    obtain ⟨hh, hp, -⟩ := mem_members.1 hc
    exact isStayer_eq hp (hsc _ hh _ hp)
  have hall : ∀ h ∈ s.handlesOn sc fun _ => true, ∀ p, s.placement h = some p → p.screen = sc := by
    intro h hh p hp
    obtain ⟨q, hq, hsc, -⟩ := State.mem_handlesOn.1 hh
    exact Option.some.inj (hp.symm.trans hq) ▸ hsc
  have hlive : ∀ h ∈ s.liveList sc, ∀ p, s.placement h = some p → p.screen = sc := fun h hh p hp => liveList_screen hh hp
  rw [layered_map (layer := fun c : Candidate => c.image.layer) (layer' := Seen.layer) (f := Candidate.seen) fun _ => rfl]
  unfold State.order
  rw [List.filter_congr fun c hc => hstays _ hlive c hc,
    List.filter_congr fun c hc => congrArg not (hstays _ hall c hc), ← map_seen_members image hlive, ← map_seen_members_all,
    List.filter_map, List.filter_map]
  rfl

theorem map_seen_appliedSet (s : State) (sc : Screen) : (appliedSet s sc).map Candidate.seen = s.order sc appliedImage :=
  map_seen_layered s sc appliedImage

theorem State.candidates_eq (s : State) (hs : List Handle) : s.candidates hs = members s wouldImage hs := by
  unfold State.candidates members wouldImage
  refine List.filterMap_congr fun h _ => ?_
  cases s.placement h with
  | none => rfl
  | some p => cases hr : p.retireStaged <;> simp [hr]

theorem map_seen_wouldBe (s : State) (sc : Screen) : (s.wouldBe sc).map Candidate.seen = s.order sc wouldImage := by
  rw [← map_seen_layered, ← State.candidates_eq, ← State.candidates_eq]
  rfl

theorem map_seen_drawnSet (s : State) (sc : Screen) : (drawnSet s sc).map Candidate.seen = s.drawn sc :=
  map_seen_members _ fun _ hh _ hp => liveList_screen hh hp

theorem targets_eq (s : State) (sc : Screen) (image : Placement → Option Image) :
    targets s sc image = (allHandles.filterMap (s.seen sc image)).map Seen.target := by
  unfold targets
  rw [List.map_filterMap]
  refine List.filterMap_congr fun h _ => ?_
  unfold State.seen
  cases s.placement h with
  | none => rfl
  | some p => by_cases hsc : p.screen = sc <;> simp [hsc, Placement.seen, Function.comp_def]

/-! ### The members of an order -/

/-- An order holds the screen's records under the choice of image, each once (R28). -/
theorem State.order_perm {s : State} {sc : Screen} {image : Placement → Option Image}
    (hlayer : ∀ h x, s.seen sc image h = some x → x.layer < 8) : (s.order sc image).Perm (allHandles.filterMap (s.seen sc image)) := by
  have hmem : ∀ (hs : List Handle) (q : Seen → Bool), ∀ x ∈ (hs.filterMap (s.seen sc image)).filter q, x.layer < 8 := by
    intro hs q x hx
    obtain ⟨h, -, hh⟩ := List.mem_filterMap.1 (List.mem_filter.1 hx).1
    exact hlayer h x hh
  refine (layered_perm (hmem _ _) (hmem _ _)).trans ?_
  refine List.Perm.trans (List.Perm.append_right _ ?_) (List.filter_append_perm (s.stays sc) _)
  have hlive : (s.liveList sc).Perm (allHandles.filter (s.onScreen sc Placement.isLive)) := s.liveList_perm sc
  refine ((hlive.filterMap _).filter _).trans (.of_eq ?_)
  rw [List.filterMap_filter, List.filter_filterMap, List.filter_filterMap]
  refine List.filterMap_congr fun h _ => ?_
  split_ifs with hon
  · rfl
  · cases hx : s.seen sc image h with
    | none => rfl
    | some x =>
      have : s.stays sc x = false := by
        unfold State.stays
        rw [State.seen_handle hx]
        cases hy : s.seen sc Placement.committed h with
        | none => rfl
        | some y =>
          obtain ⟨p, m, hp, hsc, hm, -⟩ := State.seen_eq_some.1 hy
          exact absurd (State.onScreen_eq_true.2 ⟨p, hp, hsc, by simp [Placement.isLive, hm]⟩) hon
      rw [Option.filter_some, this]; rfl

/-- The live list with the committed images holds the LIVE records, each once (R12). -/
theorem State.drawn_perm (s : State) (sc : Screen) : (s.drawn sc).Perm (allHandles.filterMap (s.seen sc Placement.committed)) := by
  have hlive : (s.liveList sc).Perm (allHandles.filter (s.onScreen sc Placement.isLive)) := s.liveList_perm sc
  refine (hlive.filterMap _).trans (.of_eq ?_)
  rw [List.filterMap_filter]
  refine List.filterMap_congr fun h _ => ?_
  split_ifs with hon
  · rfl
  · cases hy : s.seen sc Placement.committed h with
    | none => rfl
    | some y =>
      obtain ⟨p, m, hp, hsc, hm, -⟩ := State.seen_eq_some.1 hy
      exact absurd (State.onScreen_eq_true.2 ⟨p, hp, hsc, by simp [Placement.isLive, hm]⟩) hon

end Sys2Proof.Machine
end


section
/-! SUPPORT. What the three admission checks find (R31 to R33): the lowest line covered too often, the first SAFETY record from the bottom that is
covered, and the two lowest handles of several selectable records; and O17. -/

namespace Sys2Proof.Machine

/-! ### Line coverage -/

theorem overlapFault_eq_some {height line n : Nat} {rects : List Rect} : overlapFault height rects = some (line, n) ↔
    line < height ∧ n = lineCoverage rects line ∧ 6 < n ∧ ∀ k < line, lineCoverage rects k ≤ 6 := by
  unfold overlapFault
  simp only [Option.map_eq_some_iff, List.find?_range_eq_some, Prod.mk.injEq, List.mem_range, decide_eq_true_eq, Bool.not_eq_eq_eq_not,
    Bool.not_true, decide_eq_false_iff_not, not_lt]
  constructor
  · rintro ⟨l, ⟨hover, hl, hbelow⟩, rfl, rfl⟩
    exact ⟨hl, rfl, hover, hbelow⟩
  · rintro ⟨hl, rfl, hover, hbelow⟩
    exact ⟨line, ⟨hover, hl, hbelow⟩, rfl, rfl⟩

theorem overlapFault_eq_none {height : Nat} {rects : List Rect} :
    overlapFault height rects = none ↔ ∀ line < height, lineCoverage rects line ≤ 6 := by
  simp [overlapFault]

/-- The coverage does not depend on the order of the rectangles (R31). -/
theorem overlapFault_perm {height : Nat} {rects rects' : List Rect} (h : rects.Perm rects') :
    overlapFault height rects = none ↔ overlapFault height rects' = none := by
  simp only [overlapFault_eq_none, lineCoverage, (h.filter _).length_eq]

/-! ### Occlusion -/

theorem Rect.intersects_iff {p q : Rect} : p.intersects q = true ↔
    (p.x < q.x + q.w ∧ q.x < p.x + p.w) ∧ p.y < q.y + q.h ∧ q.y < p.y + p.h := by
  simp [Rect.intersects, and_assoc]

/-- No SAFETY member is covered: what the first clause of R32 says of a drawing order. -/
def Uncovered (l : List Seen) : Prop := l.Pairwise fun c x => c.cls = .safety → c.target.intersects x.target = false

theorem occlusionFault_cons_eq_none {c : Candidate} {l : List Candidate} : occlusionFault (c :: l) = none ↔
    (c.placement.cls = .safety → ∀ x ∈ l, c.image.target.intersects x.image.target = false) ∧ occlusionFault l = none := by
  rw [occlusionFault]
  split_ifs with hcls
  · cases hx : l.find? fun x => c.image.target.intersects x.image.target with
    | none => simp_all
    | some x =>
      have hmem := List.mem_of_find?_eq_some hx
      have hover : c.image.target.intersects x.image.target = true := List.find?_some (p := fun x : Candidate => c.image.target.intersects x.image.target) hx
      simp only [reduceCtorEq, false_iff, not_and]
      intro h
      simp [h hcls x hmem] at hover
  · simp [hcls]

theorem occlusionFault_eq_none {l : List Candidate} : occlusionFault l = none ↔
    l.Pairwise fun c x => c.placement.cls = .safety → c.image.target.intersects x.image.target = false := by
  induction l with
  | nil => simp [occlusionFault]
  | cons c l ih =>
    rw [occlusionFault_cons_eq_none, List.pairwise_cons, ih]
    exact and_congr_left fun _ => ⟨fun h x hx hcls => h hcls x hx, fun h hcls x hx => h x hx hcls⟩

theorem occlusionFault_seen {l : List Candidate} : occlusionFault l = none ↔ Uncovered (l.map Candidate.seen) := by
  rw [occlusionFault_eq_none, Uncovered, List.pairwise_map]
  rfl

/-- The first SAFETY member from the bottom that a member above it shares a pixel with, and the lowest such member (R32). -/
def FirstCovered (l : List Candidate) (h k : Handle) : Prop :=
  ∃ below c between x above, l = below ++ c :: (between ++ x :: above) ∧ c.handle = h ∧ x.handle = k ∧
    c.placement.cls = .safety ∧ c.image.target.intersects x.image.target = true ∧
    (∀ y ∈ between, c.image.target.intersects y.image.target = false) ∧
    ∀ low a high, below = low ++ a :: high → a.placement.cls = .safety →
      ∀ y ∈ high ++ c :: (between ++ x :: above), a.image.target.intersects y.image.target = false

/-- A member that is not covered leaves the first covered one the first. -/
theorem FirstCovered.cons {a : Candidate} {l : List Candidate} {h k : Handle} (hl : FirstCovered l h k)
    (hclear : a.placement.cls = .safety → ∀ y ∈ l, a.image.target.intersects y.image.target = false) : FirstCovered (a :: l) h k := by
  obtain ⟨below, c, between, x, above, rfl, hc, hx, hcls, hover, hbetween, hbelow⟩ := hl
  refine ⟨a :: below, c, between, x, above, rfl, hc, hx, hcls, hover, hbetween, fun low b high hlow hb => ?_⟩
  cases low with
  | nil =>
    obtain ⟨rfl, rfl⟩ := List.cons.inj hlow
    exact hclear hb
  | cons e low =>
    obtain ⟨-, rfl⟩ := List.cons.inj hlow
    exact hbelow low b high rfl hb

theorem occlusionFault_eq_some {l : List Candidate} {h k : Handle} (hf : occlusionFault l = some (h, k)) : FirstCovered l h k := by
  induction l with
  | nil => cases hf
  | cons a l ih =>
    rw [occlusionFault] at hf
    split_ifs at hf with hcls
    · split at hf
      · rename_i x hx
        obtain ⟨hover, between, above, rfl, hbetween⟩ := List.find?_eq_some_iff_append.1 hx
        obtain ⟨rfl, rfl⟩ := Prod.mk.inj (Option.some.inj hf)
        refine ⟨[], a, between, x, above, rfl, rfl, rfl, hcls, hover, fun y hy => by simpa using hbetween y hy, fun low b high hlow => ?_⟩
        cases low <;> cases hlow
      · rename_i hnone
        exact (ih hf).cons fun _ y hy => by simpa using List.find?_eq_none.1 hnone y hy
    · exact (ih hf).cons fun hc => absurd hc hcls

/-! ### Selectable count -/

/-- The handles of the selectable members, ascending (R33). -/
def selectableHandles (l : List Candidate) : List Handle :=
  allHandles.filter fun h => l.any fun c => decide (c.handle = h) && c.placement.selectable

theorem mem_selectableHandles {l : List Candidate} {h : Handle} :
    h ∈ selectableHandles l ↔ ∃ c ∈ l, c.handle = h ∧ c.placement.selectable = true := by
  simp [selectableHandles]

theorem selectFault_rear {sc : Screen} (hsc : isRearScreen sc = true) (l : List Candidate) :
    selectFault sc l = match selectableHandles l with | h :: k :: _ => some (h, k) | _ => none := by
  unfold selectFault
  rw [if_pos hsc]
  rfl

theorem selectFault_eq_none {sc : Screen} (hsc : isRearScreen sc = true) {l : List Candidate} :
    selectFault sc l = none ↔ ∀ h k, h ∈ selectableHandles l → k ∈ selectableHandles l → h = k := by
  have hsorted : (selectableHandles l).Pairwise (· < ·) := allHandles_sorted.filter _
  rw [selectFault_rear hsc]
  match hl : selectableHandles l with
  | [] => simp
  | [a] => simp
  | a :: b :: rest =>
    rw [hl] at hsorted
    have hab : a < b := (List.pairwise_cons.1 hsorted).1 b (List.mem_cons_self ..)
    simp only [reduceCtorEq, false_iff]
    intro h
    exact hab.ne (h a b (by simp) (by simp))

theorem selectFault_eq_some {sc : Screen} (hsc : isRearScreen sc = true) {l : List Candidate} {h k : Handle} :
    selectFault sc l = some (h, k) ↔
      h < k ∧ h ∈ selectableHandles l ∧ k ∈ selectableHandles l ∧ ∀ j ∈ selectableHandles l, j = h ∨ k ≤ j := by
  have hsorted : (selectableHandles l).Pairwise (· < ·) := allHandles_sorted.filter _
  rw [selectFault_rear hsc]
  match hl : selectableHandles l with
  | [] => simp
  | [a] => simp only [reduceCtorEq, List.mem_singleton, false_iff]; rintro ⟨hlt, rfl, rfl, -⟩; exact lt_irrefl _ hlt
  | a :: b :: rest =>
    rw [hl] at hsorted
    obtain ⟨ha, hrest⟩ := List.pairwise_cons.1 hsorted
    obtain ⟨hb, -⟩ := List.pairwise_cons.1 hrest
    have hab : a < b := ha b (List.mem_cons_self ..)
    have hle : ∀ j ∈ a :: b :: rest, j = a ∨ b ≤ j := by
      intro j hj
      obtain rfl | hj := List.mem_cons.1 hj
      · exact .inl rfl
      · obtain rfl | hj := List.mem_cons.1 hj
        · exact .inr le_rfl
        · exact .inr (hb j hj).le
    simp only [Option.some.injEq, Prod.mk.injEq]
    constructor
    · rintro ⟨rfl, rfl⟩
      exact ⟨hab, by simp, by simp, hle⟩
    · rintro ⟨hlt, hh, hk, hall⟩
      have hha : h = a := by
        obtain rfl | hka := hall a (by simp)
        · rfl
        · obtain rfl | hbh := hle h hh
          · rfl
          · exact absurd (hlt.trans_le (hka.trans (hab.le.trans hbh))) (lt_irrefl _)
      subst hha
      refine ⟨rfl, ?_⟩
      obtain rfl | hbk := hle k hk
      · exact absurd hlt (lt_irrefl _)
      · obtain hbh | hkb := hall b (by simp)
        · exact absurd (hbh ▸ hab) (lt_irrefl _)
        · exact le_antisymm hbk hkb

/-- At most one selectable member: what R33 says of a set. -/
def AtMostOneSelectable (l : List Seen) : Prop := ∀ x ∈ l, ∀ y ∈ l, x.selectable = true → y.selectable = true → x.handle = y.handle

theorem selectFault_seen {sc : Screen} {l : List Candidate} :
    selectFault sc l = none ↔ (isRearScreen sc = true → AtMostOneSelectable (l.map Candidate.seen)) := by
  cases hsc : isRearScreen sc with
  | false => simp [selectFault, hsc]
  | true =>
    rw [selectFault_eq_none hsc]
    simp only [mem_selectableHandles, AtMostOneSelectable, List.forall_mem_map, forall_const]
    constructor
    · intro h x hx y hy hsx hsy
      exact h _ _ ⟨x, hx, rfl, hsx⟩ ⟨y, hy, rfl, hsy⟩
    · rintro h _ _ ⟨x, hx, rfl, hsx⟩ ⟨y, hy, rfl, hsy⟩
      exact h x hx y hy hsx hsy

end Sys2Proof.Machine

namespace Sys2Proof.Safety
open Sys2Proof.Machine

/-- Settles O17: each check by what its search finds. Two rectangles that intersect share the pixel at the greater column and line of their
corners. -/
theorem admissionChecksFindTheFirstFault : Obligations.AdmissionChecksFindTheFirstFault := by
  refine ⟨fun height line n rects => ?_, fun p q hpw hph hqw hqh => ?_, fun l => ⟨occlusionFault_eq_none, fun h k => occlusionFault_eq_some⟩,
    fun sc l => ⟨fun hsc => by simp [selectFault, hsc], fun hsc selected hselected => ?_⟩⟩
  · have hcover : ∀ k, (rects.filter fun r => decide (r.y ≤ k ∧ k < r.y + r.h)).length = lineCoverage rects k := fun k => by
      unfold lineCoverage Rect.coversLine
      simp only [Bool.decide_and]
    simp only [hcover]
    exact overlapFault_eq_some
  · rw [Rect.intersects_iff]
    constructor
    · intro h
      exact ⟨max p.x q.x, max p.y q.y, by omega, by omega⟩
    · rintro ⟨column, line, hp, hq⟩
      omega
  · have hselected : ∀ h, selected h ↔ h ∈ selectableHandles l := fun h => (hselected h).trans mem_selectableHandles.symm
    simp only [hselected]
    exact ⟨selectFault_eq_none hsc, fun h k => selectFault_eq_some hsc⟩

end Sys2Proof.Safety
end


section
/-! SUPPORT. Application puts the order that was predicted into the live list (R28, R43), and which states draw the same on a screen. -/

namespace Sys2Proof.Machine
open Sys2Proof.Safety

/-! ### States that draw the same -/

theorem State.liveList_of_standing {s t : State} {sc : Screen} (h : ∀ k, t.standing sc k = s.standing sc k) :
    t.liveList sc = s.liveList sc := by
  have hstand : ∀ (u : State) k j, (∃ q, u.placement k = some q ∧ q.screen = sc ∧ q.committed ≠ none ∧ q.joinPosition = j) ↔
      ∃ x, u.standing sc k = some (j, x) := by
    intro u k j
    simp only [State.standing_eq_some, Option.ne_none_iff_exists']
    constructor
    · rintro ⟨q, hq, hsc, ⟨m, hm⟩, hj⟩; exact ⟨_, q, m, hq, hsc, hm, hj, rfl⟩
    · rintro ⟨-, q, m, hq, hsc, hm, hj, -⟩; exact ⟨q, hq, hsc, ⟨m, hm⟩, hj⟩
  exact State.liveList_congr fun k j => by rw [hstand, hstand, h]

theorem State.seen_committed_of_standing {s t : State} {sc : Screen} (h : ∀ k, t.standing sc k = s.standing sc k) :
    t.seen sc Placement.committed = s.seen sc Placement.committed := by
  funext k
  rw [State.seen_committed, State.seen_committed, h]

theorem State.drawn_of_standing {s t : State} {sc : Screen} (h : ∀ k, t.standing sc k = s.standing sc k) : t.drawn sc = s.drawn sc := by
  unfold State.drawn
  rw [State.liveList_of_standing h, State.seen_committed_of_standing h]

theorem State.order_of_standing {s t : State} {sc : Screen} {image image' : Placement → Option Image}
    (h : ∀ k, t.standing sc k = s.standing sc k) (himage : ∀ k, t.seen sc image k = s.seen sc image' k) :
    t.order sc image = s.order sc image' := by
  have hstays : t.stays sc = s.stays sc := by
    funext x
    unfold State.stays
    rw [State.seen_committed_of_standing h]
  unfold State.order
  rw [State.liveList_of_standing h, hstays, funext himage]

/-- A member of the live list stands on the screen, with its committed image (R12). -/
theorem State.standing_of_mem {s : State} {sc : Screen} {h : Handle} (hh : h ∈ s.liveList sc) :
    ∃ j x, s.standing sc h = some (j, x) ∧ (s.placement h).bind Placement.joinPosition = j ∧ s.committedLayer h = x.layer := by
  obtain ⟨p, hp, hsc, hlive⟩ := State.mem_liveList_iff.1 hh
  obtain ⟨m, hm⟩ := Option.ne_none_iff_exists'.1 hlive
  exact ⟨_, _, State.standing_eq_some.2 ⟨p, m, hp, hsc, hm, rfl, rfl⟩, by simp [hp], by simp [State.committedLayer, hp, hm, Placement.seen]⟩

/-- The live list of a screen is numbered from the bottom and in layer order (R12, R43). -/
def JoinAt (s : State) (sc : Screen) : Prop :=
  (s.liveList sc).map (fun h => (s.placement h).bind Placement.joinPosition) = (List.range (s.liveList sc).length).map some ∧
  ((s.liveList sc).map s.committedLayer).Pairwise (· ≤ ·)

theorem joinLaw_iff {s : State} : JoinLaw s ↔ ∀ sc, JoinAt s sc :=
  ⟨fun h sc => h sc (mem_allScreens sc), fun h sc _ => h sc⟩

theorem State.map_layer_drawn (s : State) (sc : Screen) : (s.drawn sc).map Seen.layer = (s.liveList sc).map s.committedLayer := by
  unfold State.drawn
  rw [List.map_filterMap, ← List.filterMap_eq_map']
  refine List.filterMap_congr fun h hh => ?_
  obtain ⟨j, x, hx, -, hlayer⟩ := State.standing_of_mem hh
  simp [State.seen_committed, hx, hlayer]

theorem JoinAt.of_standing {s t : State} {sc : Screen} (h : ∀ k, t.standing sc k = s.standing sc k) (hs : JoinAt s sc) : JoinAt t sc := by
  have hlist := State.liveList_of_standing h
  have hjoin : ∀ k ∈ s.liveList sc, (t.placement k).bind Placement.joinPosition = (s.placement k).bind Placement.joinPosition := by
    intro k hk
    obtain ⟨j, x, hx, hj, -⟩ := State.standing_of_mem hk
    obtain ⟨j', x', hx', hj', -⟩ := State.standing_of_mem (hlist ▸ hk : k ∈ t.liveList sc)
    rw [h, hx] at hx'
    rw [hj, hj', (Prod.mk.inj (Option.some.inj hx')).1]
  obtain ⟨hnumbered, hsorted⟩ := hs
  refine ⟨?_, ?_⟩
  · rw [hlist, List.map_congr_left hjoin, hnumbered]
  · rw [← State.map_layer_drawn, State.drawn_of_standing h, State.map_layer_drawn]
    exact hsorted

/-! ### A screen without a change -/

/-- Where every record keeps its committed image, the order is the live list as it stands (R43). -/
theorem State.order_eq_drawn {s : State} {sc : Screen} {image : Placement → Option Image}
    (himage : ∀ h, s.seen sc image h = s.seen sc Placement.committed h)
    (hlayer : ∀ h x, s.seen sc image h = some x → x.layer < 8) (hsorted : ((s.liveList sc).map s.committedLayer).Pairwise (· ≤ ·)) :
    s.order sc image = s.drawn sc := by
  have hstays : ∀ h x, s.seen sc image h = some x → s.stays sc x = true := by
    intro h x hx
    simp [State.stays, State.seen_handle hx, ← himage h, hx]
  have hmem : ∀ {hs : List Handle}, ∀ x ∈ hs.filterMap (s.seen sc image), s.stays sc x = true ∧ x.layer < 8 := by
    intro hs x hx
    obtain ⟨h, -, hh⟩ := List.mem_filterMap.1 hx
    exact ⟨hstays h x hh, hlayer h x hh⟩
  have hdrawn : (s.liveList sc).filterMap (s.seen sc image) = s.drawn sc := by
    unfold State.drawn
    rw [funext himage]
  unfold State.order
  rw [List.filter_eq_self.2 fun x hx => (hmem x hx).1, List.filter_eq_nil_iff.2 fun x hx => by simp [(hmem x hx).1], hdrawn]
  refine layered_of_sorted ?_ fun x hx => (hmem x (hdrawn ▸ hx : x ∈ (s.liveList sc).filterMap (s.seen sc image))).2
  rw [State.map_layer_drawn]
  exact hsorted

/-! ### Application -/

/-- Each record of a list without repetition gets its place in it (R43). -/
theorem State.renumber_placement_getElem (s : State) (n : Nat) {l : List Handle} (hl : l.Nodup) {i : Nat} {h : Handle}
    (hi : l[i]? = some h) : (s.renumber n l).placement h = (s.placement h).map fun p => { p with joinPosition := some (n + i) } := by
  induction l generalizing s n i with
  | nil => cases hi
  | cons a l ih =>
    obtain ⟨ha, hl⟩ := List.nodup_cons.1 hl
    rw [State.renumber]
    cases i with
    | zero =>
      obtain rfl := Option.some.inj hi
      rw [State.renumber_placement_notMem _ _ ha]
      simp
    | succ i =>
      have hi : l[i]? = some h := by simpa using hi
      have hne : h ≠ a := fun e => ha (e ▸ List.mem_of_getElem? hi)
      rw [ih _ _ hl hi, State.modPlacement_placement, if_neg hne]
      congr 2
      funext p
      congr 2
      omega

/-- Application in what is seen of a record: the image that was armed is the committed one (R40 to R42). -/
theorem State.seen_afterApplication {s t : State} {sc : Screen} {n : Nat} (ht : ∀ h, t.placement h = s.afterApplication sc n h) (h : Handle) :
    t.seen sc Placement.committed h = s.seen sc appliedImage h := by
  unfold State.seen
  rw [ht, State.afterApplication]
  cases hp : s.placement h with
  | none => rfl
  | some p =>
    simp only [Option.bind_some]
    by_cases hsc : p.screen = sc
    · by_cases harmed : p.armed = true
      · simp only [hsc, harmed, and_self, if_true, appliedImage]
        cases hr : p.retireStaged with
        | true => simp [Placement.applied, hr]
        | false =>
          obtain ⟨q, hq⟩ : ∃ q, p.applied n = some q := by
            unfold Placement.applied; cases p.committed <;> simp [hr]
          obtain ⟨hqs, hcls, hsel, hcom, -⟩ := Placement.applied_eq_some hq
          simp [hq, hqs, hsc, hcom, Placement.seen, hcls, hsel]
      · simp [hsc, harmed, appliedImage]
    · simp [hsc]

/-- The members of the list that application rebuilds are the LIVE records of the screen (R43). -/
theorem State.mem_rebuiltList_iff {s t : State} {sc : Screen} (hlayer : ∀ h x, t.seen sc Placement.committed h = some x → x.layer < 8) :
    (s.rebuiltList t sc).Nodup ∧
    ∀ h, h ∈ s.rebuiltList t sc ↔ ∃ p, t.placement h = some p ∧ p.screen = sc ∧ p.committed ≠ none := by
  have hlt : ∀ h, t.onScreen sc Placement.isLive h = true → t.committedLayer h < 8 := by
    intro h hh
    obtain ⟨p, hp, hsc, hlive⟩ := State.onScreen_eq_true.1 hh
    obtain ⟨m, hm⟩ := Option.isSome_iff_exists.1 hlive
    have := hlayer h _ (State.seen_eq_some.2 ⟨p, m, hp, hsc, hm, rfl⟩)
    simpa [State.committedLayer, hp, hm, Placement.seen] using this
  unfold State.rebuiltList
  dsimp only
  generalize hstayers : ((s.liveList sc).filter fun h => t.onScreen sc Placement.isLive h && decide (t.committedLayer h = s.committedLayer h)) =
    stayers
  have hstay : ∀ h ∈ stayers, t.onScreen sc Placement.isLive h = true := by
    intro h hh
    rw [← hstayers] at hh
    exact (Bool.and_eq_true_iff.1 (List.mem_filter.1 hh).2).1
  have hmove : ∀ h, h ∈ ((t.handlesOn sc Placement.isLive).filter fun h => !stayers.contains h) ↔
      t.onScreen sc Placement.isLive h = true ∧ h ∉ stayers := by
    intro h
    simp [State.handlesOn, and_comm]
  have hperm := layered_perm (layer := t.committedLayer) (stayers := stayers)
    (movers := (t.handlesOn sc Placement.isLive).filter fun h => !stayers.contains h) (fun h hh => hlt h (hstay h hh))
    fun h hh => hlt h ((hmove h).1 hh).1
  constructor
  · rw [hperm.nodup_iff]
    refine List.Nodup.append ?_ (((t.handlesOn_sorted sc _).imp fun h => ne_of_lt h).filter _) fun h hs hm => ((hmove h).1 hm).2 hs
    rw [← hstayers]
    exact (s.liveList_nodup sc).filter _
  · intro h
    rw [hperm.mem_iff, List.mem_append, hmove]
    have hon : t.onScreen sc Placement.isLive h = true ↔ ∃ p, t.placement h = some p ∧ p.screen = sc ∧ p.committed ≠ none := by
      simp [State.onScreen_eq_true, Placement.isLive, Option.isSome_iff_ne_none]
    rw [← hon]
    by_cases hs : h ∈ stayers
    · simp [hs, hstay h hs]
    · simp [hs]

/-- The list that application rebuilds, with the images it leaves, is the order that was predicted (R28, R43). -/
theorem State.filterMap_rebuiltList {s t : State} {sc : Screen}
    (hseen : ∀ h, t.seen sc Placement.committed h = s.seen sc appliedImage h) :
    (s.rebuiltList t sc).filterMap (t.seen sc Placement.committed) = s.order sc appliedImage := by
  have hlayer : ∀ h x, t.seen sc Placement.committed h = some x → t.onScreen sc Placement.isLive h = true ∧ x.layer = t.committedLayer h := by
    intro h x hx
    obtain ⟨p, m, hp, hsc, hm, rfl⟩ := State.seen_eq_some.1 hx
    exact ⟨State.onScreen_eq_true.2 ⟨p, hp, hsc, by simp [Placement.isLive, hm]⟩, by simp [State.committedLayer, hp, hm, Placement.seen]⟩
  have hstays : ∀ h x, t.seen sc Placement.committed h = some x →
      (s.stays sc x = true ↔ h ∈ s.liveList sc ∧ t.committedLayer h = s.committedLayer h) := by
    intro h x hx
    unfold State.stays
    rw [State.seen_handle hx, State.seen_committed]
    constructor
    · intro hany
      obtain ⟨y, hy, hle⟩ := (Option.any_eq_true _ _).1 hany
      obtain ⟨⟨j, y⟩, hj, rfl⟩ := Option.map_eq_some_iff.1 hy
      obtain ⟨p, m, hp, hsc, hm, -, rfl⟩ := State.standing_eq_some.1 hj
      refine ⟨State.mem_liveList_iff.2 ⟨p, hp, hsc, by simp [hm]⟩, ?_⟩
      rw [← (hlayer h x hx).2]
      have hle : x.layer = m.layer := of_decide_eq_true hle
      simpa [State.committedLayer, hp, hm] using hle
    · rintro ⟨hmem, hle⟩
      obtain ⟨j, y, hy, -, hly⟩ := State.standing_of_mem hmem
      simp [hy, (hlayer h x hx).2, hle, hly]
  unfold State.rebuiltList State.order
  dsimp only
  rw [layered_filterMap (layer' := Seen.layer) (fun h _ x hx => (hlayer h x hx).2) fun h _ x hx => (hlayer h x hx).2, ← funext hseen]
  congr 1
  · rw [List.filterMap_filter, List.filter_filterMap]
    refine List.filterMap_congr fun h hh => ?_
    cases hx : t.seen sc Placement.committed h with
    | none => simp
    | some x =>
      rw [Option.filter_some, (hlayer h x hx).1, Bool.true_and]
      exact if_congr (by rw [decide_eq_true_iff, hstays h x hx]; exact (and_iff_right hh).symm) rfl rfl
  · rw [State.handlesOn, List.filter_filter, List.filterMap_filter, List.filter_filterMap]
    refine List.filterMap_congr fun h _ => ?_
    cases hx : t.seen sc Placement.committed h with
    | none => simp
    | some x =>
      rw [Option.filter_some, (hlayer h x hx).1, Bool.and_true]
      refine if_congr ?_ rfl rfl
      have := hstays h x hx
      simp only [List.contains_eq_mem, Bool.not_eq_true', decide_eq_false_iff_not, List.mem_filter, (hlayer h x hx).1, Bool.true_and,
        decide_eq_true_eq, ← this]
      simp

/-- No record of the screen is armed (R40). -/
def NoneArmed (s : State) (sc : Screen) : Prop := ∀ h p, s.placement h = some p → p.screen = sc → p.armed = false

theorem NoneArmed.seen {s : State} {sc : Screen} (hs : NoneArmed s sc) (h : Handle) :
    s.seen sc appliedImage h = s.seen sc Placement.committed h := by
  unfold State.seen
  cases hp : s.placement h with
  | none => rfl
  | some p =>
    by_cases hsc : p.screen = sc
    · simp [hsc, appliedImage, hs h p hp hsc]
    · simp [hsc]

/-- After application no record of the screen is armed (R40). -/
theorem State.applyArmed_noneArmed (s : State) (sc : Screen) (n : Nat) : NoneArmed (s.applyArmed sc n) sc := by
  intro h q hq hsc
  obtain ⟨j, hj⟩ := s.applyArmed_placement sc n h
  obtain ⟨r, hr, rfl⟩ := Option.map_eq_some_iff.1 (hj.symm.trans hq)
  obtain ⟨p, -, hr⟩ := Option.bind_eq_some_iff.1 hr
  split at hr
  · exact (Placement.applied_eq_some hr).2.2.2.2.2.1
  · rename_i hp
    obtain rfl := Option.some.inj hr
    simpa [show p.screen = sc from hsc] using hp

/-- Application draws the order that was predicted, and numbers the live list by it (R28, R43). -/
theorem State.applyArmed_drawn {s : State} {sc : Screen} (n : Nat) (hlayer : ∀ h x, s.seen sc appliedImage h = some x → x.layer < 8)
    (hjoin : JoinAt s sc) :
    (s.applyArmed sc n).drawn sc = s.order sc appliedImage ∧ JoinAt (s.applyArmed sc n) sc := by
  obtain ⟨hnone, he⟩ | ⟨t, l, hl, ht, -, -, he⟩ := s.applyArmed_eq sc n
  · rw [he]
    exact ⟨(State.order_eq_drawn (NoneArmed.seen hnone) hlayer hjoin.2).symm, hjoin⟩
  · have hseen := State.seen_afterApplication ht
    obtain ⟨hnodup, hmem⟩ := State.mem_rebuiltList_iff (s := s) fun h x hx => hlayer h x (hseen h ▸ hx)
    rw [← hl] at hnodup hmem
    have hplace : ∀ (i : Nat) h, l[i]? = some h →
        (s.applyArmed sc n).placement h = (t.placement h).map fun p => { p with joinPosition := some i } := by
      intro i h hi
      rw [he]
      simp only [State.raise_rest, State.modComposer_placement]
      rw [State.renumber_placement_getElem t 0 hnodup hi, Nat.zero_add]
    have hseen' : ∀ h, (s.applyArmed sc n).seen sc Placement.committed h = t.seen sc Placement.committed h := by
      intro h
      obtain ⟨j, hj⟩ := t.renumber_placement_exists 0 l h
      have : (s.applyArmed sc n).placement h = (t.placement h).map fun q => { q with joinPosition := j q } := by
        rw [he, ← hj]; simp
      unfold State.seen
      rw [this]
      cases t.placement h <;> rfl
    have hkey : ∀ (i : Nat) h, l[i]? = some h → (s.applyArmed sc n).joinKey h = i ∧
        ((s.applyArmed sc n).placement h).bind Placement.joinPosition = some i := by
      intro i h hi
      obtain ⟨p, hp, -, -⟩ := (hmem h).1 (List.mem_of_getElem? hi)
      simp [State.joinKey, hplace i h hi, hp]
    have hlist : (s.applyArmed sc n).liveList sc = l := by
      refine State.liveList_eq (fun h => (hmem h).trans ?_) ?_
      · have hlive : ∀ u : State, (∃ p, u.placement h = some p ∧ p.screen = sc ∧ p.committed ≠ none) ↔
            ∃ x, u.seen sc Placement.committed h = some x := by
          intro u
          simp only [State.seen_eq_some, Option.ne_none_iff_exists']
          constructor
          · rintro ⟨p, hp, hsc, m, hm⟩; exact ⟨_, p, m, hp, hsc, hm, rfl⟩
          · rintro ⟨-, p, m, hp, hsc, hm, -⟩; exact ⟨p, hp, hsc, m, hm⟩
        rw [hlive, hlive, hseen']
      · rw [List.pairwise_iff_getElem]
        intro i j hi hj hij
        rw [(hkey i _ (List.getElem?_eq_getElem hi)).1, (hkey j _ (List.getElem?_eq_getElem hj)).1]
        exact hij
    have hdrawn : (s.applyArmed sc n).drawn sc = s.order sc appliedImage := by
      unfold State.drawn
      rw [hlist, funext hseen', hl]
      exact State.filterMap_rebuiltList hseen
    refine ⟨hdrawn, ?_, ?_⟩
    · rw [hlist]
      refine List.ext_getElem? fun i => ?_
      cases hi : l[i]? with
      | none => simp [List.getElem?_eq_none_iff.1 hi]
      | some h =>
        obtain ⟨hlt, rfl⟩ := List.getElem?_eq_some_iff.1 hi
        simp [hlt, (hkey i _ hi).2]
    · rw [← State.map_layer_drawn, hdrawn]
      exact layered_sorted ..

end Sys2Proof.Machine
end


section
/-! SUPPORT. What each row does to the context of an input, in terms of the context alone: the judgement of a frame by the table of R63, the
end of a frame, and the moves of one input (R54, R56, R58 to R61, R67, R70, R184). -/

namespace Sys2Proof.Machine
open Sys2Proof.Safety

/-! ### The table of the monitor -/

/-- A good frame in the context of its input (R63). -/
def InputContext.goodFrame (c : InputContext) : InputContext :=
  match c.monitor with
  | .absent => c
  | .acquiring =>
    if c.config.lockCount ≤ c.goodRun + 1 then { c with monitor := .locked, goodRun := 0, badRun := 0 } else { c with goodRun := c.goodRun + 1 }
  | .locked => { c with badRun := 0 }
  | .lost =>
    if c.config.lockCount ≤ 1 then { c with monitor := .locked, goodRun := 0, badRun := 0 } else { c with monitor := .acquiring, goodRun := 1 }

/-- A bad frame in the context of its input (R63, R66). -/
def InputContext.badFrame (c : InputContext) : InputContext :=
  let counted := { c with badFrames := satSucc 65535 c.badFrames }
  match c.monitor with
  | .absent => counted
  | .acquiring => { counted with goodRun := 0 }
  | .locked =>
    if c.config.lossCount ≤ c.badRun + 1 then { counted with monitor := .lost, goodRun := 0, badRun := 0 }
    else { counted with badRun := c.badRun + 1 }
  | .lost => counted

def InputContext.judged (c : InputContext) (good : Bool) : InputContext := if good then c.goodFrame else c.badFrame

theorem State.goodFrame_input_eq (s : State) (i : InputId) : (s.goodFrame i).input i = (s.input i).goodFrame := by
  cases hm : (s.input i).monitor with
  | absent => simp [State.goodFrame, InputContext.goodFrame, hm]
  | acquiring => by_cases hc : (s.input i).config.lockCount ≤ (s.input i).goodRun + 1 <;> simp [State.goodFrame, InputContext.goodFrame, hm, hc]
  | locked => simp [State.goodFrame, InputContext.goodFrame, hm]
  | lost => by_cases hc : (s.input i).config.lockCount ≤ 1 <;> simp [State.goodFrame, InputContext.goodFrame, hm, hc]

theorem State.badFrame_input_eq (s : State) (i : InputId) : (s.badFrame i).input i = (s.input i).badFrame := by
  cases hm : (s.input i).monitor with
  | absent => simp [State.badFrame, InputContext.badFrame, hm]
  | acquiring => simp [State.badFrame, InputContext.badFrame, hm]
  | locked => by_cases hc : (s.input i).config.lossCount ≤ (s.input i).badRun + 1 <;> simp [State.badFrame, InputContext.badFrame, hm, hc]
  | lost => simp [State.badFrame, InputContext.badFrame, hm]

theorem State.judge_input_eq (s : State) (i j : InputId) (good : Bool) :
    (s.judge i good).input j = if j = i then (s.input i).judged good else s.input j := by
  by_cases hj : j = i
  · subst hj
    cases good with
    | true => exact (s.goodFrame_input_eq j).trans (if_pos rfl).symm
    | false => exact (s.badFrame_input_eq j).trans (if_pos rfl).symm
  · rw [if_neg hj, State.judge_input_ne s good hj]

/-! ### The end of a frame -/

/-- A frame ended with a judgement: the monitor, the publication of its slot, and the open frame discarded (R58, R78, R79). -/
def InputContext.ended (c : InputContext) (f : OpenFrame) (good : Bool) : InputContext :=
  { (match f.slot with | some k => (c.judged good).publish k | none => c.judged good) with openFrame := none }

theorem State.endFrame_input_eq (s : State) (i j : InputId) (f : OpenFrame) (good : Bool) :
    (s.endFrame i f good).input j = if j = i then (s.input i).ended f good else s.input j := by
  by_cases hj : j = i
  · subst hj
    unfold State.endFrame InputContext.ended
    cases f.slot <;> simp [State.judge_input_eq]
  · rw [if_neg hj, State.endFrame_input_ne s f good hj]

/-- A frame still open is ended early and judged bad (R59). -/
def InputContext.endedEarly (c : InputContext) : InputContext :=
  match c.openFrame with
  | some f => c.ended f false
  | none => c

theorem State.endEarly_input_eq (s : State) (i j : InputId) :
    (s.endEarly i).input j = if j = i then (s.input i).endedEarly else s.input j := by
  cases hf : (s.input i).openFrame with
  | some f => simp [State.endEarly, InputContext.endedEarly, hf, State.endFrame_input_eq]
  | none => by_cases hj : j = i <;> simp [State.endEarly, InputContext.endedEarly, hf, hj]

/-- A due expiry: one bad frame, an open frame's own where one is open, and the next expiry (R61). -/
def InputContext.expired (c : InputContext) (now : Time) : InputContext :=
  { (match c.openFrame with | some f => c.ended f false | none => c.badFrame) with timer := some (later now c.config.period) }

theorem InputContext.judged_config (c : InputContext) (good : Bool) : (c.judged good).config = c.config := by
  unfold InputContext.judged InputContext.goodFrame InputContext.badFrame
  cases good <;> cases c.monitor <;> simp <;> split <;> rfl

theorem InputContext.ended_config (c : InputContext) (f : OpenFrame) (good : Bool) : (c.ended f good).config = c.config := by
  rw [← c.judged_config good]
  unfold InputContext.ended
  cases f.slot <;> rfl

theorem InputContext.endedEarly_config (c : InputContext) : c.endedEarly.config = c.config := by
  unfold InputContext.endedEarly
  split
  · exact c.ended_config _ _
  · rfl

theorem State.expire_input_eq (s : State) (i j : InputId) :
    (s.expire i).input j = if j = i then (s.input i).expired s.timeBase else s.input j := by
  have hjudge : s.badFrame i = s.judge i false := rfl
  have hbad : (s.input i).badFrame = (s.input i).judged false := rfl
  unfold State.expire InputContext.expired
  dsimp only
  cases hf : (s.input i).openFrame with
  | none =>
    by_cases hj : j = i
    · subst hj; simp [hjudge, hbad, State.judge_input_eq, InputContext.judged_config]
    · simp [hj, hjudge]
  | some f =>
    by_cases hj : j = i
    · subst hj; simp [State.endFrame_input_eq, InputContext.ended_config]
    · simp [hj, State.endFrame_input_eq]

/-- Step 8 of R54: an ABSENT monitor becomes ACQUIRING with both runs 0. -/
def InputContext.firstFrame (c : InputContext) : InputContext :=
  if c.monitor = .absent then { c with monitor := .acquiring, goodRun := 0, badRun := 0 } else c

/-- FRAME_START in the context of its input (R54). -/
def InputContext.frameStarted (c : InputContext) (now : Time) (tag : Half) : InputContext :=
  (c.endedEarly.beginFrame now tag c.endedEarly.freeSlot).firstFrame

theorem State.frameStart_input_eq (s : State) (i j : InputId) (tag : Half) :
    (allDomains.foldl (State.reportStart i) (((s.endEarly i).openInput i tag).firstFrame i)).input j =
      if j = i then (s.input i).frameStarted s.timeBase tag else s.input j := by
  rw [State.reportStarts_input]
  unfold InputContext.frameStarted InputContext.firstFrame
  by_cases hj : j = i
  · subst hj
    simp [State.endEarly_input_eq]
  · simp [hj, State.endEarly_input_eq]

theorem State.restartSource_input (s : State) (i j : InputId) :
    (s.restartSource i).input j = if j = i then { (s.input i).restart with monitor := .absent } else s.input j := by
  unfold State.restartSource
  by_cases hj : j = i <;> simp [hj]

/-! ### The moves of one input -/

/-- What a row other than SET_SOURCE and the release of RESETn can do to the context of an input. -/
inductive InputMove (s : State) (i : InputId) : InputContext → Prop
  | same : InputMove s i (s.input i)
  | held (z : PerSlot Slot) : InputMove s i { s.input i with slots := z }
  | abandoned : InputMove s i (s.input i).abandon
  | restarted : InputMove s i { (s.input i).restart with monitor := .absent }
  | frameStarted (tag : Half) : InputMove s i ((s.input i).frameStarted s.timeBase tag)
  | lineTaken (n : Nat) (field : PixelField) : InputMove s i ((s.input i).takeLine n field)
  | frameEnded {f : OpenFrame} (hf : (s.input i).openFrame = some f) :
      InputMove s i ((s.input i).ended f (frameIsGood (s.input i).config.height f))
  | expired (hdue : (s.input i).timer = some s.timeBase) : InputMove s i ((s.input i).expired s.timeBase)

theorem State.assertReset_input (s : State) (i : InputId) : s.assertReset.input i = (s.input i).abandon := by
  cases i <;> rfl

theorem reset_input (i : InputId) : State.reset.input i = .reset := by cases i <;> rfl

/-- The state a passing SET_SOURCE leaves (R67, R68). -/
def State.configured (s : State) (i : InputId) (c : SourceConfig) : State :=
  ((s.modInput i fun x => { x with config := c }).restartSource i).respond .ok []

theorem State.configured_input (s : State) (i j : InputId) (c : SourceConfig) :
    (s.configured i c).input j =
      if j = i then { ({ s.input i with config := c } : InputContext).restart with monitor := .absent } else s.input j := by
  unfold State.configured
  rw [State.respond_input, State.restartSource_input]
  simp +contextual

/-- Every row moves each input by one of the moves, but for SET_SOURCE and the release of RESETn. -/
theorem Effect.input_cases {s t : State} {c : Instr} (h : Effect s c t) :
    (c = .resetnRelease ∧ ∀ i, t.input i = .reset) ∨
    (∃ i x, firstFalse (SourceConfig.inRange x) = none ∧ s.lockFault i x = none ∧ s.geometryFault i x = none ∧ t = s.configured i x) ∨
    ∀ i, InputMove s i (t.input i) := by
  have keep : ∀ {u : State}, (∀ i, u.input i = s.input i) → ∀ i, InputMove s i (u.input i) := fun hu i => hu i ▸ .same
  have one : ∀ {u : State} {i : InputId} {x : InputContext}, (∀ j, u.input j = if j = i then x else s.input j) →
      InputMove s i x → ∀ j, InputMove s j (u.input j) := by
    intro u i x hu hmove j
    rw [hu]
    split
    · rename_i hj; exact hj ▸ hmove
    · exact .same
  cases h with
  | resetReleased => exact .inl ⟨rfl, reset_input⟩
  | resetAsserted => exact .inr (.inr fun i => s.assertReset_input i ▸ .abandoned)
  | @domainStarted _ d => exact .inr (.inr fun i => s.domainStart_sameInputs d i ▸ .held _)
  | sourceConfigured hi hrange hlock hfit => exact .inr (.inl ⟨_, _, hrange, hlock, hfit, rfl⟩)
  | sourceRestarted => exact .inr (.inr (one (fun j => (State.restartSource_input ..).trans rfl) .restarted))
  | frameStarted => exact .inr (.inr (one (fun j => State.frameStart_input_eq ..) (.frameStarted _)))
  | lineTaken => exact .inr (.inr (one (fun j => State.modInput_input ..) (.lineTaken _ _)))
  | frameEnded hf => exact .inr (.inr (one (fun j => State.endFrame_input_eq ..) (.frameEnded hf)))
  | expired hdue => exact .inr (.inr (one (fun j => State.expire_input_eq ..) (.expired hdue)))
  | unchanged => exact .inr (.inr (keep fun i => rfl))
  | answered => exact .inr (.inr (keep fun i => rfl))
  | opened | amended | freezeRequested | retired | screenConfigured | toneStored | linkEnabled | linkDisabled | linkReset | resetRenewed
  | domainSet | noticeTaken | masked | fetched | lineHanded | returnTaken | armed => exact .inr (.inr (keep fun i => by simp))
  | @freed _ _ _ h => exact .inr (.inr fun i => (s.freeRecord_sameInputs h i).symm ▸ .held _)

/-- But for SET_SOURCE no move changes the configuration of an input (R67). -/
theorem InputMove.config {s : State} {i : InputId} {c : InputContext} (h : InputMove s i c) : c.config = (s.input i).config := by
  cases h with
  | same => rfl
  | held => rfl
  | abandoned =>
    unfold InputContext.abandon
    split
    · rfl
    · split <;> rfl
  | restarted => rw [InputContext.restart_frame]
  | frameStarted =>
    rw [← (s.input i).endedEarly_config]
    unfold InputContext.frameStarted InputContext.firstFrame
    have hbegin : ∀ (c : InputContext) now tag slot, (c.beginFrame now tag slot).config = c.config := by
      intro c now tag slot; cases slot <;> rfl
    split <;> exact hbegin ..
  | lineTaken n field =>
    unfold InputContext.takeLine
    split
    · rfl
    · split
      · rfl
      · dsimp only
        split <;> rfl
  | frameEnded => exact InputContext.ended_config _ _ _
  | expired =>
    have hbad : (s.input i).badFrame = (s.input i).judged false := rfl
    unfold InputContext.expired
    dsimp only
    split
    · exact InputContext.ended_config _ _ _
    · rw [hbad]; exact InputContext.judged_config _ _

end Sys2Proof.Machine
end


section
/-! SUPPORT. What each row does to the context of a link (R144 to R163). -/

namespace Sys2Proof.Machine
open Sys2Proof.Safety

/-! ### The moves of one link -/

/-- What a row other than SET_SCREEN and the release of RESETn can do to the context of a link. A frame start finds the choice taken or not and the bad
choices as the composer left them (R46). -/
inductive LinkMove (s : State) (c : Instr) (sc : Screen) : LinkContext → Prop
  | same : LinkMove s c sc (s.link sc)
  | toned (k : RawColour) (g : Half) : LinkMove s c sc { s.link sc with tone := ⟨colourOf k, min 2047 g.toNat⟩ }
  | enabled (hstate : (s.link sc).state = .down) : LinkMove s c sc (s.link sc).toTraining
  | disabled : LinkMove s c sc (s.link sc).toDown
  | reset (hdown : (s.link sc).state ≠ .down) (hresetting : (s.link sc).state ≠ .resetting) : LinkMove s c sc (s.link sc).toResetting
  | renewed (hstate : (s.link sc).state = .resetting) : LinkMove s c sc { s.link sc with resetCount := some 2 }
  | frameStarted (choice : Option Nat) (bad : Nat) (hbad : BadChoicesAfter (s.link sc).badChoices bad) (n : Nat)
      (hc : isFrameStart c = true) :
      LinkMove s c sc (({ s.link sc with pendingChoice := choice, badChoices := bad } : LinkContext).frameStart n)
  | lineTaken (m : Composition) (pixels : List Colour) : LinkMove s c sc ((s.link sc).takeLine m pixels)
  | returned (r : StatusReturn) (hstate : (s.link sc).state.takesReturns = true) :
      LinkMove s c sc ((s.link sc).statusReturn (isRearScreen sc) r)

theorem State.assertReset_link (s : State) (sc : Screen) : s.assertReset.link sc = (s.link sc).toDown := by cases sc <;> rfl

theorem reset_link (sc : Screen) : State.reset.link sc = .reset := by cases sc <;> rfl

/-- The state a passing SET_SCREEN leaves (R162). -/
def State.screenSet (s : State) (sc : Screen) (c : ScreenConfig) : State := (s.modLink sc fun l => { l with config := c }).respond .ok []

theorem State.screenSet_link (s : State) (sc x : Screen) (c : ScreenConfig) :
    (s.screenSet sc c).link x = if x = sc then { s.link sc with config := c } else s.link x :=
  State.modLink_link s sc x fun l => { l with config := c }

/-- Every row moves each link by one of the moves, but for SET_SCREEN and the release of RESETn. -/
theorem Effect.link_cases {s t : State} {c : Instr} (h : Effect s c t) :
    (c = .resetnRelease ∧ ∀ sc, t.link sc = .reset) ∨
    (∃ sc x, (s.link sc).state = .down ∧ s.placementCount sc = 0 ∧ t = s.screenSet sc x) ∨ ∀ sc, LinkMove s c sc (t.link sc) := by
  have keep : ∀ {u : State}, (∀ sc, u.link sc = s.link sc) → ∀ sc, LinkMove s c sc (u.link sc) := fun hu sc => hu sc ▸ .same
  have one : ∀ {u : State} {sc : Screen} {l : LinkContext}, (∀ x, u.link x = if x = sc then l else s.link x) →
      LinkMove s c sc l → ∀ x, LinkMove s c x (u.link x) := by
    intro u sc l hu hmove x
    rw [hu]
    split
    · rename_i hx; exact hx ▸ hmove
    · exact .same
  cases h with
  | resetReleased => exact .inl ⟨rfl, reset_link⟩
  | resetAsserted => exact .inr (.inr fun sc => s.assertReset_link sc ▸ .disabled)
  | @domainStarted _ d hc =>
    refine .inr (.inr fun sc => ?_)
    obtain ⟨k, b, hb, hlink⟩ := s.domainStart_link d sc
    rw [hlink]
    split
    · exact .frameStarted k b hb _ hc
    · exact .same
  | screenConfigured hsc hdown hcount => exact .inr (.inl ⟨_, _, hdown, hcount, rfl⟩)
  | toneStored => exact .inr (.inr (one (fun x => (State.respond_link ..).trans (State.modLink_link ..)) (.toned _ _)))
  | linkEnabled hsc hstate => exact .inr (.inr (one (State.changeLink_link s _ · _) (.enabled hstate)))
  | linkDisabled => exact .inr (.inr (one (State.changeLink_link s _ · _) .disabled))
  | linkReset hsc hdown hresetting => exact .inr (.inr (one (State.changeLink_link s _ · _) (.reset hdown hresetting)))
  | resetRenewed hsc hstate => exact .inr (.inr (one (fun x => (State.respond_link ..).trans (State.modLink_link ..)) (.renewed hstate)))
  | lineHanded => exact .inr (.inr (one (fun x => (State.modComposer_link ..).trans (State.modLink_link ..)) (.lineTaken _ _)))
  | returnTaken hr hstate => exact .inr (.inr (one (State.changeLink_link s _ · _) (.returned _ hstate)))
  | unchanged => exact .inr (.inr (keep fun sc => rfl))
  | answered => exact .inr (.inr (keep fun sc => rfl))
  | opened | amended | freed | retired | armed | freezeRequested | sourceConfigured | sourceRestarted | domainSet | noticeTaken | masked
  | fetched | lineTaken | frameEnded | expired => exact .inr (.inr (keep fun sc => by simp))
  | frameStarted => exact .inr (.inr (keep fun sc => by rw [State.reportStarts_frame]; simp))

theorem LinkContext.takeLine_config (l : LinkContext) (m : Composition) (pixels : List Colour) :
    (l.takeLine m pixels).config = l.config := by
  unfold LinkContext.takeLine
  split
  · split <;> rfl
  · rfl

theorem LinkContext.statusReturn_config (l : LinkContext) (rear : Bool) (r : StatusReturn) :
    (l.statusReturn rear r).config = l.config := by
  have hfault : ∀ l : LinkContext, l.panelFault.config = l.config := by
    intro l
    unfold LinkContext.panelFault
    cases l.state <;> rfl
  unfold LinkContext.statusReturn
  split
  · exact (hfault _).trans rfl
  · rfl

/-- But for SET_SCREEN no move changes a screen configuration (R162). -/
theorem LinkMove.config {s : State} {c : Instr} {sc : Screen} {l : LinkContext} (h : LinkMove s c sc l) : l.config = (s.link sc).config := by
  cases h with
  | frameStarted => exact LinkContext.frameStart_config _ _
  | lineTaken => exact LinkContext.takeLine_config _ _ _
  | returned => exact LinkContext.statusReturn_config _ _ _
  | same | toned | enabled | disabled | reset | renewed => rfl

/-- A screen configuration is changed while no record targets the screen alone (R162). -/
theorem Effect.screenConfig {s t : State} {c : Instr} (h : Effect s c t) (sc : Screen) :
    (t.link sc).config = (s.link sc).config ∨ ∀ h p, t.placement h = some p → p.screen ≠ sc := by
  obtain ⟨rfl, -⟩ | ⟨x, cfg, -, hcount, rfl⟩ | hmoves := h.link_cases
  · cases h with
    | unchanged => exact .inl rfl
    | answered => exact .inl rfl
    | resetReleased => exact .inr fun h p hp => absurd ((reset_placement h).symm.trans hp) (by simp)
    | freezeRequested hc => obtain ⟨b, hc | hc⟩ := hc <;> cases hc
    | domainStarted hc => cases hc
  · rw [State.screenSet_link]
    split
    · rename_i hx
      exact .inr fun h p hp => hx ▸ State.placementCount_eq_zero.1 hcount h p hp
    · exact .inl rfl
  · exact .inl (hmoves sc).config

end Sys2Proof.Machine
end


section
/-! SUPPORT. Every stored image goes on passing the four checks (R6, R8, R67, R69): what can change a screen configuration or the geometry, and
that no row stores an image that has not passed. -/

namespace Sys2Proof.Machine
open Sys2Proof.Safety

/-! ### What the checks are made against -/

/-- An AMEND is not refused when its list is one the layout knows and the whole image passes (R19). -/
theorem State.amendedImage_eq_ok {s : State} {p : Placement} {es : List RawField} {m : Image} : s.amendedImage p es = .ok m ↔
    (∀ f ∈ es, f.number ≤ 12) ∧ es ≠ [] ∧ (es.map RawField.number).Nodup ∧ p.staged.writeAll es = some m ∧
    s.checkImage p.screen p.cls p.selectable m = none := by
  have hfixed : es.any RawField.isFixed = true ↔ ¬∀ f ∈ es, f.number ≤ 12 := by
    simp [RawField.isFixed, Nat.lt_iff_add_one_le]
  unfold State.amendedImage
  split_ifs with h1 h2
  · simp only [false_iff, not_and]
    exact fun h => absurd h (hfixed.1 h1)
  · simp only [Bool.or_eq_true, List.isEmpty_iff, Bool.not_eq_true', decide_eq_false_iff_not] at h2
    simp only [false_iff, not_and]
    exact fun _ hne hnodup => absurd h2 (by simp [hne, hnodup])
  · simp only [Bool.or_eq_true, List.isEmpty_iff, Bool.not_eq_true', decide_eq_false_iff_not, not_or, not_not] at h2
    rw [hfixed, not_not] at h1
    cases hw : p.staged.writeAll es with
    | none => simp
    | some n =>
      cases hc : s.checkImage p.screen p.cls p.selectable n with
      | some code =>
        simp only [hc, reduceCtorEq, Option.some.injEq, false_iff, not_and]
        rintro - - - rfl
        simp [hc]
      | none =>
        simp only [hc, Except.ok.injEq, Option.some.injEq]
        constructor
        · rintro rfl
          exact ⟨h1, h2.1, h2.2, rfl, hc⟩
        · exact fun h => h.2.2.2.1

/-- But for SET_SOURCE and the release of RESETn no row changes a geometry (R67). -/
theorem InputMove.geometry {s t : State} (h : ∀ i, InputMove s i (t.input i)) : t.geometry = s.geometry := by
  funext i
  unfold State.geometry
  rw [(h i).config]

theorem State.configured_geometry (s : State) (i : InputId) (c : SourceConfig) : (s.configured i c).geometry = s.geometryWith i c := by
  funext j
  unfold State.geometry State.geometryWith
  rw [State.configured_input]
  split
  · rw [InputContext.restart_frame]
  · rfl

/-! ### An image that does not name the input -/

theorem wholeFrameOk_congr {g g' : InputId → Nat × Nat} {i : InputId} (h : g i = g' i) (t : Rect) :
    wholeFrameOk g t i = wholeFrameOk g' t i := by
  simp only [wholeFrameOk, h]

/-- The checks against the geometry read the inputs an image names alone (R16, R17). -/
theorem imageFault_geometry {config : ScreenConfig} {g g' : InputId → Nat × Nat} {sc : Screen} {cls : PlacementClass} {sel : Bool} {m : Image}
    (h : ∀ i, m.names i = true → g i = g' i) : imageFault config g sc cls sel m = imageFault config g' sc cls sel m := by
  have hnames : ∀ i, (m.source = .input i ∨ m.alternate = some i ∨ i ∈ m.choiceList) → g i = g' i := by
    intro i hi
    refine h i ?_
    simpa [Image.names, Image.choiceList, or_assoc] using hi
  have hbounds : boundsOk g m = boundsOk g' m := by
    unfold boundsOk
    split
    · rename_i i r hi hr
      rw [hnames i (.inl hi)]
    · rfl
  have hscales : scalesOk g m = scalesOk g' m := by
    unfold scalesOk
    have hall : m.choiceList.all (wholeFrameOk g m.target) = m.choiceList.all (wholeFrameOk g' m.target) := by
      rw [Bool.eq_iff_iff, List.all_eq_true, List.all_eq_true]
      exact forall₂_congr fun i hi => by rw [wholeFrameOk_congr (hnames i (.inr (.inr hi)))]
    rw [hall]
    cases ha : m.alternate with
    | none => rfl
    | some i => simp only [wholeFrameOk_congr (hnames i (.inr (.inl ha)))]
  unfold imageFault
  rw [hbounds, hscales]

/-- A passing image that fits another geometry passes against it (R67). -/
theorem imageFault_fits {config : ScreenConfig} {g g' : InputId → Nat × Nat} {sc : Screen} {cls : PlacementClass} {sel : Bool} {m : Image}
    (h : imageFault config g sc cls sel m = none) (hbounds : boundsOk g' m = true) (hscales : scalesOk g' m = true) :
    imageFault config g' sc cls sel m = none := by
  obtain ⟨hfields, hsafety, -, -⟩ := imageFault_eq_none.1 h
  exact imageFault_eq_none.2 ⟨hfields, hsafety, hbounds, hscales⟩

/-- A record that no check of SET_SOURCE names fits the geometry it proposes (R67). -/
theorem State.fits_of_geometryFault {s : State} {i : InputId} {c : SourceConfig} (h : s.geometryFault i c = none) {k : Handle} {p : Placement}
    (hp : s.placement k = some p) (hnames : p.names i = true) : p.fitsGeometry (s.geometryWith i c) = true := by
  have hk := List.find?_eq_none.1 h k (by simp [State.dependents, hp, hnames])
  simpa [hp] using hk

end Sys2Proof.Machine

namespace Sys2Proof.Safety
open Sys2Proof.Machine

/-! ### Images -/

/-- Both images of a record pass against these configurations (R6). -/
def CheckedRecord (config : Screen → ScreenConfig) (geometry : InputId → Nat × Nat) (p : Placement) : Prop :=
  imageFault (config p.screen) geometry p.screen p.cls p.selectable p.staged = none ∧
  ∀ m, p.committed = some m → imageFault (config p.screen) geometry p.screen p.cls p.selectable m = none

/-- The record passes against the state's own configurations. -/
def CheckedIn (s : State) (p : Placement) : Prop := CheckedRecord (fun sc => (s.link sc).config) s.geometry p

theorem imageLaw_iff {s : State} : ImageLaw s ↔ ∀ h p, s.placement h = some p → CheckedIn s p :=
  forall_congr' fun _ => forall_congr' fun _ => Iff.rfl

theorem CheckedRecord.move {s : State} {c : Instr} {b : Option Placement} {q : Placement} (h : RecordMove s c b (some q))
    (hb : ∀ p, b = some p → CheckedIn s p) : CheckedIn s q := by
  cases h with
  | same => exact hb q rfl
  | opened _ hcheck => exact ⟨hcheck, fun m hm => absurd hm (by simp [Placement.opened])⟩
  | amended _ hm => exact ⟨(State.amendedImage_eq_ok.1 hm).2.2.2.2, (hb _ rfl).2⟩
  | @retired p => exact hb p rfl
  | armed named p =>
    unfold armRecord
    split
    · exact hb p rfl
    · exact hb p rfl
  | @requested p => exact hb p rfl
  | disarmed p => exact hb p rfl

theorem checkedRecord_kept {config : Screen → ScreenConfig} {geometry : InputId → Nat × Nat} :
    KeptByStages (CheckedRecord config geometry) where
  apply n p q hp hq := by
    obtain ⟨hsc, hcls, hsel, hcom, hstaged, -⟩ := Placement.applied_eq_some hq
    unfold CheckedRecord
    rw [hsc, hcls, hsel, hcom, hstaged]
    exact ⟨hp.1, fun m hm => Option.some.inj hm ▸ hp.1⟩
  join p j _ hp := hp
  choice p m i hp hsel hm hi := by
    rw [Placement.chosen_eq i hm]
    obtain ⟨hstaged, hcom⟩ := hp
    have hchosen := hcom m hm
    rw [hsel] at hstaged hchosen
    refine ⟨?_, fun n hn => ?_⟩
    · dsimp only
      rw [hsel]
      split
      · rename_i hlist
        exact imageFault_choose hstaged (by simpa using hlist)
      · exact hstaged
    · obtain rfl := Option.some.inj hn
      dsimp only
      rw [hsel]
      exact imageFault_choose hchosen hi
  freeze p _ hp := by
    rw [Placement.freezeTaken_eq]
    exact hp
  decide answers p _ hlive hp := by
    obtain ⟨m, hm⟩ := Option.ne_none_iff_exists'.1 hlive
    rw [Placement.decided_eq answers hm]
    exact hp

theorem checkedIn_kept (s : State) : KeptByStages (CheckedIn s) :=
  checkedRecord_kept (config := fun sc => (s.link sc).config) (geometry := s.geometry)

/-- A change of a screen configuration reaches no record (R162). -/
theorem CheckedRecord.of_config {config config' : Screen → ScreenConfig} {geometry : InputId → Nat × Nat} {p : Placement}
    (h : config' p.screen = config p.screen) (hp : CheckedRecord config geometry p) : CheckedRecord config' geometry p := by
  unfold CheckedRecord
  rw [h]
  exact hp

/-- A record passes against the geometry of a SET_SOURCE that passes its checks (R67). -/
theorem CheckedRecord.configured {s : State} {config : Screen → ScreenConfig} {i : InputId} {c : SourceConfig}
    (hfit : s.geometryFault i c = none) {k : Handle} {p : Placement} (hk : s.placement k = some p)
    (hp : CheckedRecord config s.geometry p) : CheckedRecord config (s.geometryWith i c) p := by
  obtain ⟨hstaged, hcom⟩ := hp
  by_cases hnames : p.names i = true
  · have hfits := State.fits_of_geometryFault hfit hk hnames
    unfold Placement.fitsGeometry at hfits
    simp only [Bool.and_eq_true] at hfits
    obtain ⟨⟨hb, hs⟩, hboth⟩ := hfits
    refine ⟨imageFault_fits hstaged hb hs, fun m hm => ?_⟩
    rw [hm] at hboth
    obtain ⟨hb, hs⟩ := Bool.and_eq_true_iff.1 hboth
    exact imageFault_fits (hcom m hm) hb hs
  · have hother : ∀ m : Image, m.names i ≠ true → ∀ j, m.names j = true → s.geometry j = s.geometryWith i c j := by
      intro m hm j hj
      have : j ≠ i := fun e => hm (e ▸ hj)
      simp [State.geometryWith, this]
    have hstagedNames : p.staged.names i ≠ true := fun e => hnames (by simp [Placement.names, e])
    refine ⟨(imageFault_geometry (hother _ hstagedNames)).symm.trans hstaged, fun m hm => ?_⟩
    have hcomNames : m.names i ≠ true := fun e => hnames (by simp [Placement.names, hm, e])
    exact (imageFault_geometry (hother _ hcomNames)).symm.trans (hcom m hm)

/-- Every row keeps every stored image passing (R6, R69). -/
theorem imageLaw_effect {s t : State} {c : Instr} (h : Effect s c t) (hs : ImageLaw s) : ImageLaw t := by
  have hchecked : ∀ k p, t.placement k = some p → CheckedIn s p :=
    h.keeps_records (fun _ _ => CheckedRecord.move) (checkedIn_kept s) (imageLaw_iff.1 hs)
  have hconfig : ∀ k p, t.placement k = some p → (t.link p.screen).config = (s.link p.screen).config := by
    intro k p hp
    obtain hsame | hnone := h.screenConfig p.screen
    · exact hsame
    · exact absurd rfl (hnone k p hp)
  refine imageLaw_iff.2 fun k p hp => ?_
  have hscreen : CheckedRecord (fun sc => (t.link sc).config) s.geometry p :=
    CheckedRecord.of_config (hconfig k p hp) (hchecked k p hp)
  obtain ⟨rfl, -⟩ | ⟨i, x, -, -, hfit, rfl⟩ | hmoves := h.input_cases
  · cases h with
    | unchanged => exact hs k p hp
    | answered => exact hs k p hp
    | resetReleased => exact absurd ((reset_placement k).symm.trans hp) (by simp)
    | freezeRequested hc => obtain ⟨b, hc | hc⟩ := hc <;> cases hc
    | domainStarted hc => cases hc
  · unfold CheckedIn
    rw [State.configured_geometry]
    exact CheckedRecord.configured hfit (by simpa [State.configured] using hp) hscreen
  · unfold CheckedIn
    rw [InputMove.geometry hmoves]
    exact hscreen

end Sys2Proof.Safety
end


section
/-! SUPPORT. What each row does to the drawing of a screen: nothing, an application, an arming or a disarming (R34, R40, R43, R184). -/

namespace Sys2Proof.Machine
open Sys2Proof.Safety

/-! ### The part of a record a frame start keeps after application -/

/-- An image without its source, which a passenger choice writes (R47). -/
def Image.unsourced (m : Image) : Image := { m with source := .solid }

/-- A record without what a choice, a freeze request and a view decision write (R47, R126, R135). -/
def Placement.outline (p : Placement) : Placement :=
  { p with
    committed := p.committed.map Image.unsourced, staged := p.staged.unsourced, frozen := false, freezeRequest := none, view := none
    latched := none, age := 0, lastFrame := 0 }

theorem Placement.chosen_outline {p : Placement} {m : Image} (i : InputId) (hm : p.committed = some m) :
    (p.chosen m i).outline = p.outline := by
  rw [Placement.chosen_eq i hm]
  unfold Placement.outline
  have hstaged : (if p.staged.choiceList.contains i then { p.staged with source := .input i } else p.staged).unsourced = p.staged.unsourced := by
    split <;> rfl
  simp only [hstaged, hm, Option.map_some]
  rfl

theorem Placement.freezeTaken_outline (p : Placement) : p.freezeTaken.outline = p.outline := by
  rw [Placement.freezeTaken_eq]; rfl

theorem Placement.decided_outline {p : Placement} (answers : InputId → SourceAnswer) (hlive : p.committed ≠ none) :
    (p.decided answers).outline = p.outline := by
  obtain ⟨m, hm⟩ := Option.ne_none_iff_exists'.1 hlive
  rw [Placement.decided_eq answers hm]; rfl

/-- After application a composer's frame start writes the sources, the freeze and the view of a record alone (R39). -/
theorem State.composerStart_outline (s : State) (sc : Screen) (n : Nat) (h : Handle) :
    ((s.composerStart sc n).placement h).map Placement.outline = ((s.applyArmed sc n).placement h).map Placement.outline := by
  have hchoice : (((s.applyArmed sc n).takeChoice sc).placement h).map Placement.outline =
      ((s.applyArmed sc n).placement h).map Placement.outline := by
    obtain he | ⟨p, m, i, hp, -, -, hm, -, he⟩ := (s.applyArmed sc n).takeChoice_placement_cases sc h
    · rw [he]
    · rw [he, hp]; exact congrArg some (Placement.chosen_outline i hm)
  have hbefore : ((s.beforeViews sc n).placement h).map Placement.outline =
      (((s.applyArmed sc n).takeChoice sc).placement h).map Placement.outline := by
    unfold State.beforeViews
    simp only [State.takeTone_rest]
    rw [State.takeFreezes_placement]
    split
    · rw [Option.map_map]
      exact congrArg (Option.map · _) (funext Placement.freezeTaken_outline)
    · rfl
  rw [State.composerStart_placement, ← hchoice, ← hbefore]
  split
  · rename_i hmem
    obtain ⟨q, hq, -, hlive⟩ := State.mem_liveList_iff.1 hmem
    rw [hq]
    exact congrArg some (Placement.decided_outline _ hlive)
  · rfl

/-- What the drawing order reads of a record is part of its outline. -/
theorem State.standing_of_outline {s t : State} {sc : Screen} (h : ∀ k, (t.placement k).map Placement.outline = (s.placement k).map Placement.outline) :
    (∀ k, t.standing sc k = s.standing sc k) ∧ ∀ k, t.seen sc appliedImage k = s.seen sc appliedImage k := by
  have hstand : ∀ (u : State) k, u.standing sc k = ((u.placement k).map Placement.outline).bind fun p =>
      if p.screen = sc then p.committed.map fun m => (p.joinPosition, p.seen k m) else none := by
    intro u k
    unfold State.standing
    cases u.placement k with
    | none => rfl
    | some p => by_cases hsc : p.screen = sc <;> cases hc : p.committed <;> simp [Placement.outline, hsc, hc, Placement.seen, Image.unsourced]
  have hseen : ∀ (u : State) k, u.seen sc appliedImage k = ((u.placement k).map Placement.outline).bind fun p =>
      if p.screen = sc then (appliedImage p).map (p.seen k) else none := by
    intro u k
    unfold State.seen
    cases u.placement k with
    | none => rfl
    | some p =>
      have himage : appliedImage p.outline = (appliedImage p).map Image.unsourced := by
        unfold appliedImage Placement.outline
        dsimp only
        split
        · split <;> rfl
        · rfl
      by_cases hsc : p.screen = sc
      · have hsc' : p.outline.screen = sc := hsc
        simp only [Option.bind_some, Option.map_some, hsc, hsc', if_true, himage, Option.map_map]
        rfl
      · have hsc' : ¬p.outline.screen = sc := hsc
        simp only [Option.bind_some, Option.map_some, hsc, hsc', if_false]
  exact ⟨fun k => by rw [hstand, hstand, h], fun k => by rw [hseen, hseen, h]⟩

/-- A frame start moves no record from screen to screen and opens none (R5, R18). -/
theorem State.composerStart_screen {s : State} {sc : Screen} {n : Nat} {h : Handle} {q : Placement}
    (hq : (s.composerStart sc n).placement h = some q) :
    ∃ p, s.placement h = some p ∧ q.screen = p.screen ∧ q.cls = p.cls ∧ q.selectable = p.selectable := by
  have houtline := s.composerStart_outline sc n h
  rw [hq] at houtline
  obtain ⟨r, hr, hqr⟩ := Option.map_eq_some_iff.1 houtline.symm
  obtain ⟨j, hj⟩ := s.applyArmed_placement sc n h
  obtain ⟨x, hx, rfl⟩ := Option.map_eq_some_iff.1 (hj.symm.trans hr)
  obtain ⟨p, hp, hpx⟩ := Option.bind_eq_some_iff.1 hx
  refine ⟨p, hp, ?_⟩
  have hfixed : q.screen = x.screen ∧ q.cls = x.cls ∧ q.selectable = x.selectable :=
    ⟨(congrArg Placement.screen hqr).symm, (congrArg Placement.cls hqr).symm, (congrArg Placement.selectable hqr).symm⟩
  split at hpx
  · obtain ⟨h1, h2, h3, -⟩ := Placement.applied_eq_some hpx
    exact ⟨hfixed.1.trans h1, hfixed.2.1.trans h2, hfixed.2.2.trans h3⟩
  · obtain rfl := Option.some.inj hpx
    exact hfixed

theorem State.domainStart_screen {s : State} {d : Domain} {h : Handle} {q : Placement} (hq : (s.domainStart d).placement h = some q) :
    ∃ p, s.placement h = some p ∧ q.screen = p.screen ∧ q.cls = p.cls ∧ q.selectable = p.selectable := by
  rw [State.domainStart_placement] at hq
  obtain ⟨r, hr, h1, h2, h3⟩ := State.composerStart_screen hq
  obtain ⟨p, hp, g1, g2, g3⟩ := State.composerStart_screen hr
  exact ⟨p, by simpa using hp, h1.trans g1, h2.trans g2, h3.trans g3⟩

/-! ### The moves of a screen's drawing -/

/-- The states draw the same on the screen, now and once what is armed is applied. -/
structure SameDrawing (s t : State) (sc : Screen) : Prop where
  standing : ∀ k, t.standing sc k = s.standing sc k
  applied : ∀ k, t.seen sc appliedImage k = s.seen sc appliedImage k

/-- What was armed on the screen has been applied, in the order predicted (R40 to R43). -/
structure AppliedDrawing (s t : State) (sc : Screen) : Prop where
  committed : ∀ k, t.seen sc Placement.committed k = s.seen sc appliedImage k
  applied : ∀ k, t.seen sc appliedImage k = s.seen sc appliedImage k
  order : (∀ k x, s.seen sc appliedImage k = some x → x.layer < 8) → JoinAt s sc →
    t.drawn sc = s.order sc appliedImage ∧ JoinAt t sc

/-- What any row can do to the drawing of a screen. -/
inductive DrawingMove (s t : State) (sc : Screen) : Prop
  | same (h : SameDrawing s t sc)
  | applied (h : AppliedDrawing s t sc)
  | armed (hstanding : ∀ k, t.standing sc k = s.standing sc k) (hwould : ∀ k, t.seen sc appliedImage k = s.seen sc wouldImage k)
      (hpass : s.admissionFault sc = none)
  | disarmed (hstanding : ∀ k, t.standing sc k = s.standing sc k)
      (hcommitted : ∀ k, t.seen sc appliedImage k = s.seen sc Placement.committed k)
  | cleared (hnone : ∀ k, t.placement k = none)

theorem SameDrawing.of_placement {s t : State} {sc : Screen}
    (h : ∀ k, t.placement k = s.placement k ∨ ((∀ p, s.placement k = some p → p.screen ≠ sc) ∧ ∀ p, t.placement k = some p → p.screen ≠ sc)) :
    SameDrawing s t sc := by
  have hoff : ∀ {u : State} {k : Handle}, (∀ p, u.placement k = some p → p.screen ≠ sc) →
      u.standing sc k = none ∧ u.seen sc appliedImage k = none := by
    intro u k hu
    unfold State.standing State.seen
    cases hp : u.placement k with
    | none => exact ⟨rfl, rfl⟩
    | some p => simp [hu p hp]
  refine ⟨fun k => ?_, fun k => ?_⟩ <;> obtain he | ⟨hs, ht⟩ := h k
  · unfold State.standing; rw [he]
  · rw [(hoff hs).1, (hoff ht).1]
  · unfold State.seen; rw [he]
  · rw [(hoff hs).2, (hoff ht).2]

theorem SameDrawing.trans {s t u : State} {sc : Screen} (h : SameDrawing s t sc) (h' : SameDrawing t u sc) : SameDrawing s u sc :=
  ⟨fun k => (h'.standing k).trans (h.standing k), fun k => (h'.applied k).trans (h.applied k)⟩

theorem AppliedDrawing.of_same_left {s t u : State} {sc : Screen} (h : SameDrawing s t sc) (h' : AppliedDrawing t u sc) :
    AppliedDrawing s u sc where
  committed k := (h'.committed k).trans (h.applied k)
  applied k := (h'.applied k).trans (h.applied k)
  order hlayer hjoin := by
    rw [← State.order_of_standing h.standing h.applied]
    exact h'.order (fun k x hx => hlayer k x (h.applied k ▸ hx)) (hjoin.of_standing h.standing)

theorem AppliedDrawing.of_same_right {s t u : State} {sc : Screen} (h : AppliedDrawing s t sc) (h' : SameDrawing t u sc) :
    AppliedDrawing s u sc where
  committed k := (congrFun (State.seen_committed_of_standing h'.standing) k).trans (h.committed k)
  applied k := (h'.applied k).trans (h.applied k)
  order hlayer hjoin := by
    obtain ⟨horder, hjoin⟩ := h.order hlayer hjoin
    exact ⟨(State.drawn_of_standing h'.standing).trans horder, hjoin.of_standing h'.standing⟩

/-- Application alone (R40 to R43). -/
theorem State.applyArmed_drawing (s : State) (sc : Screen) (n : Nat) : AppliedDrawing s (s.applyArmed sc n) sc := by
  have hcommitted : ∀ k, (s.applyArmed sc n).seen sc Placement.committed k = s.seen sc appliedImage k := by
    intro k
    obtain ⟨j, hj⟩ := s.applyArmed_placement sc n k
    have hafter : (s.applyArmed sc n).seen sc Placement.committed k =
        (s.afterApplication sc n k).bind fun p => if p.screen = sc then p.committed.map (p.seen k) else none := by
      unfold State.seen
      rw [hj]
      cases s.afterApplication sc n k <;> rfl
    rw [hafter]
    cases hp : s.placement k with
    | none => simp [State.afterApplication, State.seen, hp]
    | some p =>
      by_cases hsc : p.screen = sc
      · by_cases harmed : p.armed = true
        · cases hr : p.retireStaged with
          | true => simp [State.afterApplication, State.seen, hp, hsc, harmed, Placement.applied, appliedImage, hr]
          | false =>
            obtain ⟨q, hq⟩ : ∃ q, p.applied n = some q := by
              unfold Placement.applied; cases p.committed <;> simp [hr]
            obtain ⟨hqs, hcls, hsel, hcom, -⟩ := Placement.applied_eq_some hq
            simp [State.afterApplication, State.seen, hp, hsc, harmed, hq, hqs, hcom, appliedImage, hr, Placement.seen, hcls, hsel]
        · simp [State.afterApplication, State.seen, hp, hsc, harmed, appliedImage]
      · simp [State.afterApplication, State.seen, hp, hsc]
  exact ⟨hcommitted, fun k => ((s.applyArmed_noneArmed sc n).seen k).trans (hcommitted k), s.applyArmed_drawn n⟩

/-- A composer's frame start applies what is armed on its screen and leaves the drawing of every other (R39). -/
theorem State.composerStart_drawing (s : State) (sc : Screen) (n : Nat) : AppliedDrawing s (s.composerStart sc n) sc := by
  obtain ⟨hstanding, happlied⟩ := State.standing_of_outline (sc := sc) (s.composerStart_outline sc n)
  exact (s.applyArmed_drawing sc n).of_same_right ⟨hstanding, happlied⟩

theorem State.composerStart_drawing_other (s : State) {sc x : Screen} (n : Nat) (hx : x ≠ sc) : SameDrawing s (s.composerStart sc n) x := by
  refine .of_placement fun k => ?_
  by_cases hs : ∀ p, s.placement k = some p → p.screen ≠ sc
  · exact .inl (congrArg Record.body (State.composerStart_record_other n hs))
  · right
    push Not at hs
    obtain ⟨p, hp, hsc⟩ := hs
    have hoff : ∀ q, s.placement k = some q → q.screen ≠ x := fun q hq => by
      rw [← Option.some.inj (hp.symm.trans hq), hsc]; exact hx.symm
    refine ⟨hoff, fun q hq => ?_⟩
    obtain ⟨r, hr, hqr, -⟩ := State.composerStart_screen hq
    exact hqr ▸ hoff r hr

theorem State.domainStart_drawing (s : State) (d : Domain) (sc : Screen) :
    SameDrawing s (s.domainStart d) sc ∨ AppliedDrawing s (s.domainStart d) sc := by
  generalize hn : ((s.domainWork d).domain d).frameNumber = n
  have hwork : SameDrawing s (s.domainWork d) sc := .of_placement fun k => .inl (by simp)
  have hlinks : SameDrawing (((s.domainWork d).composerStart (domainScreens d).1 n).composerStart (domainScreens d).2 n) (s.domainStart d) sc :=
    .of_placement fun k => .inl (by rw [State.domainStart_placement, hn])
  have hne := domainScreens_ne d
  by_cases h1 : sc = (domainScreens d).1
  · right
    have hfirst : AppliedDrawing (s.domainWork d) ((s.domainWork d).composerStart (domainScreens d).1 n) sc :=
      h1 ▸ State.composerStart_drawing _ _ n
    have hsecond := State.composerStart_drawing_other ((s.domainWork d).composerStart (domainScreens d).1 n) n (x := sc) (h1 ▸ hne)
    exact (hfirst.of_same_left hwork).of_same_right (hsecond.trans hlinks)
  · have hfirst := State.composerStart_drawing_other (s.domainWork d) n h1
    by_cases h2 : sc = (domainScreens d).2
    · right
      have hsecond := State.composerStart_drawing ((s.domainWork d).composerStart (domainScreens d).1 n) (domainScreens d).2 n
      rw [← h2] at hsecond hlinks
      exact (hsecond.of_same_left (hwork.trans hfirst)).of_same_right hlinks
    · left
      have hsecond := State.composerStart_drawing_other ((s.domainWork d).composerStart (domainScreens d).1 n) n h2
      exact hwork.trans (hfirst.trans (hsecond.trans hlinks))

/-- A row that writes one record draws the same where the record stands and would stand as before. -/
theorem SameDrawing.of_one {s t : State} {sc : Screen} {h : Handle} {b : Option Placement}
    (ht : ∀ k, t.placement k = if k = h then b else s.placement k)
    (hstanding : (b.bind fun p => if p.screen = sc then p.committed.map fun m => (p.joinPosition, p.seen h m) else none) = s.standing sc h)
    (happlied : (b.bind fun p => if p.screen = sc then (appliedImage p).map (p.seen h) else none) = s.seen sc appliedImage h) :
    SameDrawing s t sc := by
  refine ⟨fun k => ?_, fun k => ?_⟩ <;> by_cases hk : k = h
  · subst hk
    rw [← hstanding, State.standing, ht, if_pos rfl]
  · rw [State.standing, State.standing, ht, if_neg hk]
  · subst hk
    rw [← happlied, State.seen, ht, if_pos rfl]
  · rw [State.seen, State.seen, ht, if_neg hk]

/-- A passing COMMIT arms what the would-be live set differs in (R27, R34). -/
theorem appliedImage_armRecord {named : List Screen} {p : Placement} (hnamed : p.screen ∈ named) :
    appliedImage (armRecord named p) = wouldImage p := by
  have hcontains : named.contains p.screen = true := by simpa using hnamed
  unfold armRecord wouldImage appliedImage Placement.chosenImage Placement.hasStagedDifferences
  rw [hcontains, Bool.true_and]
  cases hr : p.retireStaged with
  | true => simp
  | false =>
    cases hc : p.committed with
    | none => simp
    | some m =>
      by_cases hm : m = p.staged
      · cases ha : p.armed <;> simp [hm, hr, hc, ha]
      · simp [hm, Ne.symm hm]

theorem armRecord_of_notMem {named : List Screen} {p : Placement} (hnamed : p.screen ∉ named) : armRecord named p = p := by
  unfold armRecord
  rw [if_neg (by simp [hnamed])]

theorem armRecord_fields (named : List Screen) (p : Placement) : armRecord named p = { p with armed := (armRecord named p).armed } := by
  unfold armRecord
  split <;> rfl

theorem State.armed_placement (s : State) (named : List Screen) (body : List Byte) (k : Handle) :
    ((s.arm named).respond .ok body).placement k = (s.placement k).map (armRecord named) := by
  rw [State.respond_placement, State.arm_placement]

/-- A COMMIT draws nothing anew (R34). -/
theorem State.arm_standing (s : State) (named : List Screen) (body : List Byte) (sc : Screen) (k : Handle) :
    ((s.arm named).respond .ok body).standing sc k = s.standing sc k := by
  unfold State.standing
  rw [State.armed_placement]
  cases s.placement k with
  | none => rfl
  | some p =>
    simp only [Option.map_some, Option.bind_some]
    rw [armRecord_fields]
    rfl

/-- On a screen named, a COMMIT leaves to be applied what it checked (R27, R34). -/
theorem State.arm_seen (s : State) {named : List Screen} (body : List Byte) {sc : Screen} (hsc : sc ∈ named) (k : Handle) :
    ((s.arm named).respond .ok body).seen sc appliedImage k = s.seen sc wouldImage k := by
  unfold State.seen
  rw [State.armed_placement]
  cases s.placement k with
  | none => rfl
  | some p =>
    simp only [Option.map_some, Option.bind_some]
    by_cases hp : p.screen = sc
    · rw [appliedImage_armRecord (hp.symm ▸ hsc), armRecord_fields]
      rfl
    · rw [armRecord_fields]
      simp [hp]

/-- A COMMIT in the drawing of a screen (R34). -/
theorem State.arm_drawing {s : State} {named : List Screen} (hpass : ∀ sc ∈ named, s.admissionFault sc = none) (body : List Byte) (sc : Screen) :
    DrawingMove s ((s.arm named).respond .ok body) sc := by
  by_cases hsc : sc ∈ named
  · exact .armed (s.arm_standing named body sc) (s.arm_seen body hsc) (hpass sc hsc)
  · refine .same ⟨s.arm_standing named body sc, fun k => ?_⟩
    unfold State.seen
    rw [State.armed_placement]
    cases s.placement k with
    | none => rfl
    | some p =>
      simp only [Option.map_some, Option.bind_some]
      by_cases hp : p.screen = sc
      · rw [armRecord_of_notMem (hp.symm ▸ hsc)]
      · rw [armRecord_fields]
        simp [hp]

/-- Every row moves the drawing of a screen by one of the moves. -/
theorem Effect.drawing {s t : State} {c : Instr} (h : Effect s c t) (sc : Screen) : DrawingMove s t sc := by
  have keep : ∀ {u : State}, (∀ k, u.placement k = s.placement k) → DrawingMove s u sc := fun hu =>
    .same (.of_placement fun k => .inl (hu k))
  cases h with
  | @domainStarted _ d =>
    obtain h | h := s.domainStart_drawing d sc
    · exact .same h
    · exact .applied h
  | armed hpass => exact State.arm_drawing hpass _ sc
  | resetReleased => exact .cleared reset_placement
  | resetAsserted =>
    have hplace : ∀ k, s.assertReset.placement k = (s.placement k).map disarm := fun k => by
      rw [← State.record_body s.assertReset, State.assertReset_record]
    refine .disarmed (fun k => ?_) fun k => ?_
    · unfold State.standing
      rw [hplace]
      cases s.placement k <;> rfl
    · unfold State.seen
      rw [hplace]
      cases s.placement k <;> rfl
  | @opened _ _ _ _ x cls sel m h _ himage hcheck hfree hcount =>
    have hnone := (State.lowestFree_eq_some.1 hfree).1
    refine .same (.of_one (h := h) (b := some (.opened x cls sel m)) (fun k => by simp) ?_ ?_)
    · simp [State.standing, hnone, Placement.opened]
    · simp [State.seen, hnone, Placement.opened, appliedImage]
  | @amended _ _ _ _ h p m _ hh hp harmed hm =>
    refine .same (.of_one (h := h) (b := some { p with staged := m }) (fun k => by simp [hp]) ?_ ?_)
    · simp [State.standing, hp, Placement.seen]
    · simp only [State.seen, hp, appliedImage, harmed, Option.bind_some]
      rfl
  | @freed _ _ _ h p _ hh hp harmed hnew =>
    refine .same (.of_one (h := h) (b := none) (fun k => by simp) ?_ ?_)
    · simp [State.standing, hp, hnew]
    · simp [State.seen, hp, appliedImage, harmed, hnew]
  | @retired _ _ _ h p _ hh hp harmed hlive =>
    refine .same (.of_one (h := h) (b := some { p with retireStaged := true }) (fun k => by simp [hp]) ?_ ?_)
    · simp [State.standing, hp, Placement.seen]
    · simp only [State.seen, hp, appliedImage, harmed, Option.bind_some]
      rfl
  | @freezeRequested _ h p r _ hc hp hcls hlive =>
    refine .same (.of_one (h := h) (b := some { p with freezeRequest := some r }) (fun k => by simp [hp]) ?_ ?_)
    · simp [State.standing, hp, Placement.seen]
    · simp only [State.seen, hp, appliedImage, Option.bind_some]
      rfl
  | unchanged => exact keep fun k => rfl
  | answered => exact keep fun k => rfl
  | sourceConfigured | sourceRestarted | screenConfigured | toneStored | linkEnabled | linkDisabled | linkReset | resetRenewed | domainSet
  | lineTaken | frameEnded | expired | lineHanded | returnTaken => exact keep fun k => by simp
  | noticeTaken | masked | fetched => exact keep fun k => rfl
  | frameStarted => exact keep fun k => by rw [State.reportStarts_frame]; simp

end Sys2Proof.Machine
end


section
/-! SUPPORT. The laws of the table that every step keeps: views of SAFETY records, screen limits, live lists, coverage, occlusion and selectable
count; with O55, O56 and O57. -/

namespace Sys2Proof.Machine

/-- Two states that differ in the queue, the choices and the time base alone, with those written out. -/
theorem State.SameBlocks.exists {s t : State} (h : s.SameBlocks t) :
    ∃ a b c, t = { s with timeBase := a, pending := b, choiceCount := c } := ⟨_, _, _, h⟩

/-! ### The screens of the records -/

theorem placementCount_le {s t : State} {sc : Screen}
    (h : ∀ k q, t.placement k = some q → ∃ p, s.placement k = some p ∧ q.screen = p.screen) : t.placementCount sc ≤ s.placementCount sc := by
  unfold State.placementCount State.handlesOn
  refine (List.monotone_filter_right allHandles fun k hk => ?_).length_le
  obtain ⟨q, hq, hsc, -⟩ := State.onScreen_eq_true.1 hk
  obtain ⟨p, hp, hqp⟩ := h k q hq
  exact State.onScreen_eq_true.2 ⟨p, hp, hqp.symm.trans hsc, rfl⟩

/-- A record that is FREE and then taken adds itself to its screen's count (R18). -/
theorem placementCount_one {s t : State} {h : Handle} {p : Placement} (hnone : s.placement h = none)
    (ht : ∀ k, t.placement k = if k = h then some p else s.placement k) (sc : Screen) :
    t.placementCount sc = s.placementCount sc + if p.screen = sc then 1 else 0 := by
  have hmem : ∀ k, k ∈ t.handlesOn sc (fun _ => true) ↔ (k = h ∧ p.screen = sc) ∨ k ∈ s.handlesOn sc fun _ => true := by
    intro k
    by_cases hk : k = h
    · subst hk; simp [State.mem_handlesOn, ht, hnone]
    · simp [State.mem_handlesOn, ht, hk]
  have hnodup : ∀ u : State, (u.handlesOn sc fun _ => true).Nodup := fun u => (u.handlesOn_sorted sc _).imp fun h => ne_of_lt h
  unfold State.placementCount
  split
  · rename_i hsc
    have hperm : (t.handlesOn sc fun _ => true).Perm (h :: s.handlesOn sc fun _ => true) := by
      rw [List.perm_ext_iff_of_nodup (hnodup t) (List.nodup_cons.2 ⟨by simp [State.mem_handlesOn, hnone], hnodup s⟩)]
      intro k
      rw [hmem]
      simp [hsc]
    simpa using hperm.length_eq
  · rename_i hsc
    have hperm : (t.handlesOn sc fun _ => true).Perm (s.handlesOn sc fun _ => true) := by
      rw [List.perm_ext_iff_of_nodup (hnodup t) (hnodup s)]
      intro k
      rw [hmem]
      simp [hsc]
    simpa using hperm.length_eq

/-- But for an OPEN no row opens a record, and none moves one from screen to screen (R5, R18). -/
theorem Effect.screens {s t : State} {c : Instr} (h : Effect s c t) :
    (∃ k q, s.placement k = none ∧ s.placementCount q.screen < 16 ∧ ∀ j, t.placement j = if j = k then some q else s.placement j) ∨
    ∀ k q, t.placement k = some q → ∃ p, s.placement k = some p ∧ q.screen = p.screen := by
  have keep : ∀ {u : State}, (∀ k, u.placement k = s.placement k) →
      ∀ k q, u.placement k = some q → ∃ p, s.placement k = some p ∧ q.screen = p.screen :=
    fun hu k q hq => ⟨q, hu k ▸ hq, rfl⟩
  have map : ∀ {u : State} (f : Handle → Placement → Placement), (∀ k p, (f k p).screen = p.screen) →
      (∀ k, u.placement k = (s.placement k).map (f k)) →
      ∀ k q, u.placement k = some q → ∃ p, s.placement k = some p ∧ q.screen = p.screen := by
    intro u f hf hu k q hq
    obtain ⟨p, hp, rfl⟩ := Option.map_eq_some_iff.1 ((hu k).symm.trans hq)
    exact ⟨p, hp, hf k p⟩
  have one : ∀ {u : State} {h : Handle} (f : Placement → Placement), (∀ p, (f p).screen = p.screen) →
      (∀ k, u.placement k = if k = h then (s.placement h).map f else s.placement k) →
      ∀ k q, u.placement k = some q → ∃ p, s.placement k = some p ∧ q.screen = p.screen := by
    intro u h f hf hu
    refine map (fun k => if k = h then f else id) (fun k p => by split <;> simp [hf]) fun k => ?_
    rw [hu]
    split
    · rename_i hk; rw [hk]
    · simp
  cases h with
  | @opened _ _ _ _ sc cls sel m h _ himage hcheck hfree hcount =>
    exact .inl ⟨h, .opened sc cls sel m, (State.lowestFree_eq_some.1 hfree).1, hcount, fun j => by simp⟩
  | domainStarted =>
    refine .inr fun k q hq => ?_
    obtain ⟨p, hp, hsc, -⟩ := State.domainStart_screen hq
    exact ⟨p, hp, hsc⟩
  | resetReleased => exact .inr fun k q hq => absurd ((reset_placement k).symm.trans hq) (by simp)
  | resetAsserted =>
    exact .inr (map (fun _ => disarm) (fun _ _ => rfl) fun k => by rw [← State.record_body s.assertReset, State.assertReset_record])
  | @armed _ named =>
    exact .inr (map (fun _ => armRecord named) (fun _ p => by unfold armRecord; split <;> rfl) fun k => by
      rw [State.respond_placement, State.arm_placement])
  | @amended _ _ _ _ h _ m => exact .inr (one (h := h) (fun p => { p with staged := m }) (fun _ => rfl) fun k => by simp)
  | @freed _ _ _ h p =>
    refine .inr fun k q hq => ?_
    by_cases hk : k = h
    · simp [hk] at hq
    · exact ⟨q, by simpa [hk] using hq, rfl⟩
  | @retired _ _ _ h => exact .inr (one (h := h) (fun p => { p with retireStaged := true }) (fun _ => rfl) fun k => by simp)
  | @freezeRequested _ h _ r => exact .inr (one (h := h) (fun p => { p with freezeRequest := some r }) (fun _ => rfl) fun k => by simp)
  | unchanged => exact .inr (keep fun k => rfl)
  | answered => exact .inr (keep fun k => rfl)
  | sourceConfigured | sourceRestarted | screenConfigured | toneStored | linkEnabled | linkDisabled | linkReset | resetRenewed | domainSet
  | lineTaken | frameEnded | expired | lineHanded | returnTaken => exact .inr (keep fun k => by simp)
  | noticeTaken | masked | fetched => exact .inr (keep fun k => rfl)
  | frameStarted => exact .inr (keep fun k => by rw [State.reportStarts_frame]; simp)

end Sys2Proof.Machine

namespace Sys2Proof.Safety
open Sys2Proof.Machine

/-! ### SAFETY records -/

/-- What SafetyViewLaw says of one record (R22, R138). -/
def SafetyRecord (p : Placement) : Prop :=
  p.cls = .safety → p.frozen = false ∧ p.freezeRequest = none ∧ ∀ v, p.view = some v → v = .showing ∨ v = .filled ∨ v = .alternate

theorem safetyViewLaw_iff {s : State} : SafetyViewLaw s ↔ ∀ h p, s.placement h = some p → SafetyRecord p :=
  forall_congr' fun _ => forall_congr' fun _ => Iff.rfl

theorem SafetyRecord.move {s : State} {c : Instr} {b : Option Placement} {q : Placement} (h : RecordMove s c b (some q))
    (hb : ∀ p, b = some p → SafetyRecord p) : SafetyRecord q := by
  cases h with
  | same => exact hb q rfl
  | opened => exact fun _ => ⟨rfl, rfl, fun v hv => absurd hv (by simp [Placement.opened])⟩
  | @amended p => exact hb p rfl
  | @retired p => exact hb p rfl
  | armed named p =>
    unfold armRecord
    split
    · exact hb p rfl
    · exact hb p rfl
  | @requested p r hcls => exact fun hs => absurd hs hcls
  | disarmed p => exact hb p rfl

/-- The view of a SAFETY record whose policy is FILL or ALTERNATE and that is not frozen is one of three (R133, R138). -/
theorem viewDecision_safety {p : Placement} {m : Image} {answers : InputId → SourceAnswer} (hfrozen : p.frozen = false)
    (hhold : m.policy ≠ .hold) (hhide : m.policy ≠ .hide) :
    (viewDecision p m answers).view = .showing ∨ (viewDecision p m answers).view = .filled ∨ (viewDecision p m answers).view = .alternate := by
  obtain ⟨hf, -⟩ | ⟨-, -, he⟩ | ⟨i, -, -, ⟨r, n, -, -, he⟩ | ⟨-, he⟩⟩ := viewDecision_cases p m answers
  · rw [hf] at hfrozen; cases hfrozen
  · rw [he]; exact .inl rfl
  · rw [he]; exact .inl rfl
  · rw [he]
    obtain ⟨hp, -⟩ | ⟨-, j, r, n, -, -, hs⟩ | ⟨hp, -⟩ | ⟨-, hs⟩ :=
      substitute_cases (i := i) (m := m) (held := candidate p (answers i)) (answers := answers)
    · exact absurd hp hhold
    · exact .inr (.inr (congrArg Prod.fst hs))
    · exact absurd hp hhide
    · exact .inr (.inl (congrArg Prod.fst hs))

theorem safetyRecord_kept (s : State) : KeptByStages fun p => CheckedIn s p ∧ SafetyRecord p where
  apply n p q hp hq := by
    refine ⟨(checkedIn_kept s).apply n p q hp.1 hq, fun hcls => ?_⟩
    obtain ⟨-, hc, -, -, -, -, hf, hr, -, -, ⟨-, hview, -⟩ | ⟨m, -, hview, -⟩⟩ := Placement.applied_eq_some hq
    · obtain ⟨hfrozen, hrequest, -⟩ := hp.2 (hc.symm.trans hcls)
      exact ⟨hf.trans hfrozen, hr.trans hrequest, fun v hv => absurd (hview.symm.trans hv) (by simp)⟩
    · obtain ⟨hfrozen, hrequest, hviews⟩ := hp.2 (hc.symm.trans hcls)
      exact ⟨hf.trans hfrozen, hr.trans hrequest, fun v hv => hviews v (hview.symm.trans hv)⟩
  join p j _ hp := hp
  choice p m i hp hsel hm hi := by
    refine ⟨(checkedIn_kept s).choice p m i hp.1 hsel hm hi, ?_⟩
    rw [Placement.chosen_eq i hm]
    exact hp.2
  freeze p hlive hp := by
    refine ⟨(checkedIn_kept s).freeze p hlive hp.1, ?_⟩
    rw [Placement.freezeTaken_eq]
    intro hcls
    obtain ⟨hfrozen, hrequest, hviews⟩ := hp.2 hcls
    exact ⟨by simp [hrequest, hfrozen], rfl, hviews⟩
  decide answers p hown hlive hp := by
    refine ⟨(checkedIn_kept s).decide answers p hown hlive hp.1, ?_⟩
    obtain ⟨m, hm⟩ := Option.ne_none_iff_exists'.1 hlive
    rw [Placement.decided_eq answers hm]
    intro hcls
    obtain ⟨hfrozen, hrequest, -⟩ := hp.2 hcls
    have hcheck := hp.1.2 m hm
    rw [show p.cls = .safety from hcls] at hcheck
    obtain ⟨-, hsafety, -, -⟩ := imageFault_eq_none.1 hcheck
    obtain ⟨-, -, hhold, hhide, -⟩ := safetyOk_safety hsafety
    exact ⟨hfrozen, hrequest, fun v hv => Option.some.inj hv ▸ viewDecision_safety hfrozen hhold hhide⟩

/-- Every row keeps what a SAFETY record is, while every image passes (R22, R138). -/
theorem safetyViewLaw_effect {s t : State} {c : Instr} (h : Effect s c t) (himage : ImageLaw s) (hs : SafetyViewLaw s) : SafetyViewLaw t :=
  safetyViewLaw_iff.2 fun k q hq =>
    (h.keeps_records (Q := fun p => CheckedIn s p ∧ SafetyRecord p)
      (fun _ _ hmove hb => ⟨CheckedRecord.move hmove fun p hp => (hb p hp).1, SafetyRecord.move hmove fun p hp => (hb p hp).2⟩)
      (safetyRecord_kept s) (fun k p hp => ⟨imageLaw_iff.1 himage k p hp, safetyViewLaw_iff.1 hs k p hp⟩) k q hq).2

/-! ### Screen limits -/

/-- Every row keeps the screen limit: OPEN alone adds to a screen, below its limit (R18). -/
theorem screenLimit_effect {s t : State} {c : Instr} (h : Effect s c t) (hs : ScreenLimit s) : ScreenLimit t := by
  intro sc hsc
  obtain ⟨k, q, hnone, hcount, ht⟩ | hkeep := h.screens
  · rw [placementCount_one hnone ht]
    split
    · rename_i hq; rw [hq] at hcount; omega
    · exact hs sc hsc
  · exact (placementCount_le hkeep).trans (hs sc hsc)

/-! ### Live lists -/

/-- Every image a set takes from a record is one of its two, and passes (R6, R27). -/
theorem ImageLaw.layer {s : State} (hs : ImageLaw s) {sc : Screen} {image : Placement → Option Image}
    (himage : ∀ p m, image p = some m → m = p.staged ∨ p.committed = some m) (h : Handle) (x : Seen) (hx : s.seen sc image h = some x) :
    x.layer < 8 := by
  obtain ⟨p, m, hp, -, hm, rfl⟩ := State.seen_eq_some.1 hx
  obtain ⟨hstaged, hcom⟩ := imageLaw_iff.1 hs h p hp
  obtain rfl | hc := himage p m hm
  · exact State.checkImage_layer (s := s) hstaged
  · exact State.checkImage_layer (s := s) (hcom m hc)

theorem appliedImage_cases (p : Placement) (m : Image) (h : appliedImage p = some m) : m = p.staged ∨ p.committed = some m := by
  unfold appliedImage at h
  split_ifs at h
  · exact .inl (Option.some.inj h).symm
  · exact .inr h

theorem wouldImage_cases (p : Placement) (m : Image) (h : wouldImage p = some m) : m = p.staged ∨ p.committed = some m := by
  unfold wouldImage Placement.chosenImage at h
  split_ifs at h
  obtain rfl := Option.some.inj h
  split
  · exact .inl rfl
  · rename_i n hn
    split
    · exact .inr hn
    · exact .inl rfl

/-- Every row keeps the live lists numbered and in layer order (R12, R43). -/
theorem joinLaw_effect {s t : State} {c : Instr} (h : Effect s c t) (himage : ImageLaw s) (hs : JoinLaw s) : JoinLaw t := by
  refine joinLaw_iff.2 fun sc => ?_
  have hjoin := joinLaw_iff.1 hs sc
  cases h.drawing sc with
  | same hd => exact hjoin.of_standing hd.standing
  | applied hd => exact (hd.order (ImageLaw.layer himage appliedImage_cases) hjoin).2
  | armed hstanding => exact hjoin.of_standing hstanding
  | disarmed hstanding => exact hjoin.of_standing hstanding
  | cleared hnone =>
    have hempty : t.liveList sc = [] := List.eq_nil_iff_forall_not_mem.2 fun k hk => by
      obtain ⟨p, hp, -⟩ := State.mem_liveList_iff.1 hk
      exact absurd ((hnone k).symm.trans hp) (by simp)
    rw [JoinAt, hempty]
    simp

/-- Settles O55: each law reads the blocks alone and every row keeps it. -/
theorem stepKeepsTheTable : Obligations.StepKeepsTheTable := by
  intro s t hstep
  have hblocks : ∀ {P : State → Prop}, (∀ s a b c, P s → P { s with timeBase := a, pending := b, choiceCount := c }) →
      ∀ s t : State, s.SameBlocks t → P s → P t := by
    intro P hP s t hst hs
    obtain ⟨a, b, c, rfl⟩ := hst.exists
    exact hP s a b c hs
  refine ⟨step_keeps (hblocks fun _ _ _ _ h => h) (fun _ _ _ h => imageLaw_effect h) hstep,
    step_keeps (hblocks fun _ _ _ _ h => h) (fun _ _ _ h => newLaw_effect h) hstep, fun himage hsafety => ?_,
    step_keeps (hblocks fun _ _ _ _ h => h) (fun _ _ _ h => screenLimit_effect h) hstep, fun himage hjoin => ?_⟩
  · exact (step_keeps (P := fun s => ImageLaw s ∧ SafetyViewLaw s) (hblocks fun _ _ _ _ h => h)
      (fun _ _ _ h hs => ⟨imageLaw_effect h hs.1, safetyViewLaw_effect h hs.1 hs.2⟩) hstep ⟨himage, hsafety⟩).2
  · exact (step_keeps (P := fun s => ImageLaw s ∧ JoinLaw s) (hblocks fun _ _ _ _ h => h)
      (fun _ _ _ h hs => ⟨imageLaw_effect h hs.1, joinLaw_effect h hs.1 hs.2⟩) hstep ⟨himage, hjoin⟩).2

end Sys2Proof.Safety
end


section
/-! SUPPORT. Coverage, occlusion and selectable count are kept by every step (R31 to R33, R45), with O56 and O57. -/

namespace Sys2Proof.Safety
open Sys2Proof.Machine

/-! ### What a passing screen's would-be live set has -/

theorem admissionFault_eq_none {s : State} {sc : Screen} (h : s.admissionFault sc = none) :
    overlapFault (s.link sc).config.height ((s.wouldBe sc).map fun c => c.image.target) = none ∧ occlusionFault (s.wouldBe sc) = none ∧
    selectFault sc (s.wouldBe sc) = none := by
  unfold State.admissionFault at h
  dsimp only at h
  split at h
  · cases h
  · rename_i hoverlap
    split at h
    · cases h
    · rename_i hocclusion
      split at h
      · cases h
      · rename_i hselect
        exact ⟨hoverlap, hocclusion, hselect⟩

/-! ### Line coverage -/

/-- No line of the screen is covered too often under this choice of image (R31). -/
def Covered (s : State) (sc : Screen) (image : Placement → Option Image) (height : Nat) : Prop :=
  overlapFault height ((allHandles.filterMap (s.seen sc image)).map Seen.target) = none

theorem coverageLaw_iff {s : State} : CoverageLaw s ↔
    ∀ sc, Covered s sc Placement.committed (s.link sc).config.height ∧ Covered s sc appliedImage (s.link sc).config.height := by
  simp only [CoverageLaw, Covered, targets_eq, mem_allScreens, forall_const]

theorem Covered.congr {s t : State} {sc : Screen} {image image' : Placement → Option Image} {height : Nat}
    (h : ∀ k, t.seen sc image k = s.seen sc image' k) (hs : Covered s sc image' height) : Covered t sc image height := by
  unfold Covered
  rw [funext h]
  exact hs

theorem covered_of_none {t : State} {sc : Screen} (h : ∀ k p, t.placement k = some p → p.screen ≠ sc) (image : Placement → Option Image)
    (height : Nat) : Covered t sc image height := by
  have hempty : allHandles.filterMap (t.seen sc image) = [] := by
    rw [List.filterMap_eq_nil_iff]
    intro k _
    unfold State.seen
    cases hp : t.placement k with
    | none => rfl
    | some p => simp [h k p hp]
  unfold Covered
  rw [hempty]
  simp [overlapFault_eq_none, lineCoverage]

/-- A passing screen's would-be live set covers no line too often (R31). -/
theorem covered_of_admission {s : State} {sc : Screen} (himage : ImageLaw s) (h : s.admissionFault sc = none) :
    Covered s sc wouldImage (s.link sc).config.height := by
  obtain ⟨hoverlap, -, -⟩ := admissionFault_eq_none h
  have htargets : (s.wouldBe sc).map (fun c => c.image.target) = (s.order sc wouldImage).map Seen.target := by
    rw [← map_seen_wouldBe, List.map_map]; rfl
  rw [htargets] at hoverlap
  exact (overlapFault_perm ((State.order_perm (ImageLaw.layer himage wouldImage_cases)).map _)).1 hoverlap

/-- Every row keeps the line coverage (R31, R45). -/
theorem coverageLaw_effect {s t : State} {c : Instr} (h : Effect s c t) (himage : ImageLaw s) (hs : CoverageLaw s) : CoverageLaw t := by
  refine coverageLaw_iff.2 fun sc => ?_
  obtain ⟨hcommitted, happlied⟩ := coverageLaw_iff.1 hs sc
  obtain hconfig | hnone := h.screenConfig sc
  · rw [hconfig]
    cases h.drawing sc with
    | same hd => exact ⟨hcommitted.congr (congrFun (State.seen_committed_of_standing hd.standing)), happlied.congr hd.applied⟩
    | applied hd => exact ⟨happlied.congr hd.committed, happlied.congr hd.applied⟩
    | armed hstanding hwould hpass =>
      exact ⟨hcommitted.congr (congrFun (State.seen_committed_of_standing hstanding)), (covered_of_admission himage hpass).congr hwould⟩
    | disarmed hstanding hdisarmed =>
      exact ⟨hcommitted.congr (congrFun (State.seen_committed_of_standing hstanding)), hcommitted.congr hdisarmed⟩
    | cleared hnone =>
      have hoff : ∀ k p, t.placement k = some p → p.screen ≠ sc := fun k p hp => absurd ((hnone k).symm.trans hp) (by simp)
      exact ⟨covered_of_none hoff _ _, covered_of_none hoff _ _⟩
  · exact ⟨covered_of_none hnone _ _, covered_of_none hnone _ _⟩

/-! ### Selectable count -/

/-- A rear screen has at most one selectable record under this choice of image (R33). -/
def OneSelectable (s : State) (sc : Screen) (image : Placement → Option Image) : Prop :=
  isRearScreen sc = true → AtMostOneSelectable (allHandles.filterMap (s.seen sc image))

theorem atMostOneSelectable_perm {l l' : List Seen} (h : l.Perm l') : AtMostOneSelectable l ↔ AtMostOneSelectable l' := by
  simp only [AtMostOneSelectable, h.mem_iff]

theorem selectLaw_iff {s : State} (himage : ImageLaw s) : SelectLaw s ↔
    ∀ sc, OneSelectable s sc Placement.committed ∧ OneSelectable s sc appliedImage := by
  simp only [SelectLaw, selectFault_seen, map_seen_drawnSet, map_seen_appliedSet, mem_allScreens, forall_const, OneSelectable,
    atMostOneSelectable_perm (s.drawn_perm _), atMostOneSelectable_perm (State.order_perm (ImageLaw.layer himage appliedImage_cases))]

theorem OneSelectable.congr {s t : State} {sc : Screen} {image image' : Placement → Option Image}
    (h : ∀ k, t.seen sc image k = s.seen sc image' k) (hs : OneSelectable s sc image') : OneSelectable t sc image := by
  unfold OneSelectable
  rw [funext h]
  exact hs

theorem oneSelectable_of_admission {s : State} {sc : Screen} (himage : ImageLaw s) (h : s.admissionFault sc = none) :
    OneSelectable s sc wouldImage := by
  obtain ⟨-, -, hselect⟩ := admissionFault_eq_none h
  rw [selectFault_seen, map_seen_wouldBe] at hselect
  exact fun hrear => (atMostOneSelectable_perm (State.order_perm (ImageLaw.layer himage wouldImage_cases))).1 (hselect hrear)

/-- Every row keeps the selectable count (R33, R45). -/
theorem selectLaw_effect {s t : State} {c : Instr} (h : Effect s c t) (himage : ImageLaw s) (hs : SelectLaw s) : SelectLaw t := by
  refine (selectLaw_iff (imageLaw_effect h himage)).2 fun sc => ?_
  obtain ⟨hcommitted, happlied⟩ := (selectLaw_iff himage).1 hs sc
  cases h.drawing sc with
  | same hd => exact ⟨hcommitted.congr (congrFun (State.seen_committed_of_standing hd.standing)), happlied.congr hd.applied⟩
  | applied hd => exact ⟨happlied.congr hd.committed, happlied.congr hd.applied⟩
  | armed hstanding hwould hpass =>
    exact ⟨hcommitted.congr (congrFun (State.seen_committed_of_standing hstanding)), (oneSelectable_of_admission himage hpass).congr hwould⟩
  | disarmed hstanding hdisarmed =>
    exact ⟨hcommitted.congr (congrFun (State.seen_committed_of_standing hstanding)), hcommitted.congr hdisarmed⟩
  | cleared hnone =>
    have hempty : ∀ image, allHandles.filterMap (t.seen sc image) = [] := fun image => by
      rw [List.filterMap_eq_nil_iff]
      intro k _
      simp [State.seen, hnone k]
    unfold OneSelectable
    simp [hempty, AtMostOneSelectable]

/-- Settles O56: both laws are about what is seen of the records, and an arming is of a set that passed both checks. -/
theorem stepKeepsLineCoverage : Obligations.StepKeepsLineCoverage := by
  intro s t himage hstep
  refine ⟨fun hs => ?_, fun hs => ?_⟩
  · refine (step_keeps (P := fun s => ImageLaw s ∧ CoverageLaw s) (fun s t hst hs => ?_)
      (fun _ _ _ h hs => ⟨imageLaw_effect h hs.1, coverageLaw_effect h hs.1 hs.2⟩) hstep ⟨himage, hs⟩).2
    obtain ⟨a, b, c, rfl⟩ := hst.exists
    exact hs
  · refine (step_keeps (P := fun s => ImageLaw s ∧ SelectLaw s) (fun s t hst hs => ?_)
      (fun _ _ _ h hs => ⟨imageLaw_effect h hs.1, selectLaw_effect h hs.1 hs.2⟩) hstep ⟨himage, hs⟩).2
    obtain ⟨a, b, c, rfl⟩ := hst.exists
    exact hs

/-! ### Occlusion -/

theorem occlusionLaw_iff {s : State} : OcclusionLaw s ↔ ∀ sc, Uncovered (s.drawn sc) ∧ Uncovered (s.order sc appliedImage) := by
  simp only [OcclusionLaw, occlusionFault_seen, map_seen_drawnSet, map_seen_appliedSet, mem_allScreens, forall_const]

/-- Every row keeps every SAFETY placement uncovered: what is drawn is a set that passed, in the order it was checked in (R32, R45). -/
theorem occlusionLaw_effect {s t : State} {c : Instr} (h : Effect s c t) (himage : ImageLaw s) (hjoin : JoinLaw s) (hs : OcclusionLaw s) :
    OcclusionLaw t := by
  have himage' := imageLaw_effect h himage
  have hjoin' := joinLaw_iff.1 (joinLaw_effect h himage hjoin)
  refine occlusionLaw_iff.2 fun sc => ?_
  obtain ⟨hdrawn, hordered⟩ := occlusionLaw_iff.1 hs sc
  cases h.drawing sc with
  | same hd =>
    rw [State.drawn_of_standing hd.standing, State.order_of_standing hd.standing hd.applied]
    exact ⟨hdrawn, hordered⟩
  | applied hd =>
    have hnow := (hd.order (ImageLaw.layer himage appliedImage_cases) (joinLaw_iff.1 hjoin sc)).1
    have hnext : t.order sc appliedImage = t.drawn sc :=
      State.order_eq_drawn (fun k => (hd.applied k).trans (hd.committed k).symm) (ImageLaw.layer himage' appliedImage_cases) (hjoin' sc).2
    rw [hnext, hnow]
    exact ⟨hordered, hordered⟩
  | armed hstanding hwould hpass =>
    rw [State.drawn_of_standing hstanding, State.order_of_standing hstanding hwould, ← map_seen_wouldBe, ← occlusionFault_seen]
    exact ⟨hdrawn, (admissionFault_eq_none hpass).2.1⟩
  | disarmed hstanding hdisarmed =>
    have hnext : t.order sc appliedImage = t.drawn sc :=
      State.order_eq_drawn (fun k => (hdisarmed k).trans (congrFun (State.seen_committed_of_standing hstanding) k).symm)
        (ImageLaw.layer himage' appliedImage_cases) (hjoin' sc).2
    rw [hnext, State.drawn_of_standing hstanding]
    exact ⟨hdrawn, hdrawn⟩
  | cleared hnone =>
    have hseen : ∀ image k, t.seen sc image k = none := fun image k => by simp [State.seen, hnone k]
    have hfilter : ∀ image (l : List Handle), l.filterMap (t.seen sc image) = [] := fun image l =>
      List.filterMap_eq_nil_iff.2 fun k _ => hseen image k
    have hdrawn : t.drawn sc = [] := hfilter _ _
    have hordered : t.order sc appliedImage = [] := by
      unfold State.order
      rw [hfilter, hfilter]
      rfl
    rw [hdrawn, hordered]
    exact ⟨.nil, .nil⟩

/-- Settles O57. -/
theorem stepKeepsSafetyUncovered : Obligations.StepKeepsSafetyUncovered := by
  intro s t himage hjoin hs hstep
  refine (step_keeps (P := fun s => ImageLaw s ∧ JoinLaw s ∧ OcclusionLaw s) (fun s t hst hs => ?_) (fun _ _ _ h hs => ?_)
    hstep ⟨himage, hjoin, hs⟩).2.2
  · obtain ⟨a, b, c, rfl⟩ := hst.exists
    exact hs
  · obtain ⟨himage, hjoin, hs⟩ := hs
    exact ⟨imageLaw_effect h himage, joinLaw_effect h himage hjoin, occlusionLaw_effect h himage hjoin hs⟩

end Sys2Proof.Safety
end


section
/-! SUPPORT. The picture store through a change of latch: holder counts, slot combinations and contents (R74, R80 to R82), and the stages of a
composer's frame start as changes of latch. -/

namespace Sys2Proof.Machine
open Sys2Proof.Safety

/-! ### Holder counts -/

/-- The slot a record has latched, none for a FREE record (R80). -/
def State.latchOf (s : State) (h : Handle) : Option SlotRef := (s.placement h).bind Placement.latched

theorem holderCount_eq (s : State) (r : SlotRef) : holderCount s r = (allHandles.filter fun h => decide (s.latchOf h = some r)).length := by
  unfold holderCount State.latchOf
  congr 1
  refine List.filter_congr fun h _ => ?_
  cases s.placement h <;> simp

theorem holderCount_congr {s t : State} (h : ∀ k, t.latchOf k = s.latchOf k) (r : SlotRef) : holderCount t r = holderCount s r := by
  simp only [holderCount_eq, h]

/-- A change of one record's latch moves one holder (R80). -/
theorem holderCount_change {s t : State} {h : Handle} {b : Option SlotRef} (ht : ∀ k, t.latchOf k = if k = h then b else s.latchOf k)
    (r : SlotRef) :
    holderCount t r + (if s.latchOf h = some r then 1 else 0) = holderCount s r + if b = some r then 1 else 0 := by
  have hperm := List.perm_cons_erase (mem_allHandles h)
  have hcount : ∀ u : State, holderCount u r =
      (if u.latchOf h = some r then 1 else 0) + ((allHandles.erase h).filter fun k => decide (u.latchOf k = some r)).length := by
    intro u
    rw [holderCount_eq, (hperm.filter _).length_eq, List.filter_cons]
    split <;> rename_i hu <;> simp only [decide_eq_true_eq] at hu <;> simp [hu, Nat.add_comm]
  have hrest : ((allHandles.erase h).filter fun k => decide (t.latchOf k = some r)) =
      (allHandles.erase h).filter fun k => decide (s.latchOf k = some r) := by
    refine List.filter_congr fun k hk => ?_
    rw [ht, if_neg (allHandles_nodup.mem_erase_iff.1 hk).1]
  rw [hcount t, hcount s, hrest, ht h, if_pos rfl]
  omega

/-- A relation between the holders counted and the holders noted that a change of latch keeps: equality (R80), and being no more. -/
structure HolderRel (rel : Nat → Nat → Prop) : Prop where
  le : ∀ {a b}, rel a b → a ≤ b
  succ : ∀ {a b}, rel (a + 1) (b + 1) ↔ rel a b

theorem holderRel_eq : HolderRel (· = ·) := ⟨fun h => h.le, Nat.succ_inj⟩

theorem holderRel_le : HolderRel (· ≤ ·) := ⟨fun h => h, Nat.succ_le_succ_iff⟩

/-- The holders counted and noted of every slot are so related. -/
def Held (rel : Nat → Nat → Prop) (s : State) : Prop := ∀ r, rel (holderCount s r) (s.slot r).holders

theorem holderLaw_iff {s : State} : HolderLaw s ↔ Held (· = ·) s := by
  constructor
  · rintro h ⟨i, k⟩
    exact (h i (mem_allInputs i) k (mem_allSlots k)).symm
  · exact fun h i _ k _ => (h ⟨i, k⟩).symm

theorem Held.of_same {rel : Nat → Nat → Prop} {s t : State} (hlatch : ∀ k, t.latchOf k = s.latchOf k)
    (hslots : ∀ r, (t.slot r).holders = (s.slot r).holders) (hs : Held rel s) : Held rel t := fun r => by
  rw [holderCount_congr hlatch, hslots]
  exact hs r

/-- A slot latched by a record has a holder (R80). -/
theorem Held.holders_pos {rel : Nat → Nat → Prop} (hrel : HolderRel rel) {s : State} (hs : Held rel s) {h : Handle} {r : SlotRef}
    (hl : s.latchOf h = some r) : 1 ≤ (s.slot r).holders := by
  have hmem : h ∈ allHandles.filter fun k => decide (s.latchOf k = some r) := by simp [hl]
  exact (holderCount_eq s r ▸ List.length_pos_of_mem hmem : 0 < holderCount s r).trans_le (hrel.le (hs r))

/-! ### The slots of an input -/

theorem length_le_one_iff {α : Type} {l : List α} (hl : l.Nodup) : l.length ≤ 1 ↔ ∀ a ∈ l, ∀ b ∈ l, a = b := by
  match l, hl with
  | [], _ => simp
  | [a], _ => simp
  | a :: b :: l, hl =>
    refine iff_of_false (by simp) fun h => ?_
    exact (List.nodup_cons.1 hl).1 (h a (by simp) b (by simp) ▸ List.mem_cons_self ..)

/-- The slots of one input are lawful: combinations, one latest slot, and a FILLING slot exactly where the open frame has one (R52, R74). -/
theorem slotsLawful_iff {c : InputContext} : slotsLawful c = true ↔
    (∀ k, slotCombination (c.slots.get k) = true) ∧
    (∀ j k, (c.slots.get j).latest = true → (c.slots.get k).latest = true → j = k) ∧
    ∀ k, (c.slots.get k).state = .filling ↔ c.openFrame.bind OpenFrame.slot = some k := by
  have hnodup : (allSlots.filter fun k => (c.slots.get k).latest).Nodup := List.Nodup.filter _ (by decide)
  unfold slotsLawful
  simp only [Bool.and_eq_true, decide_eq_true_eq, length_le_one_iff hnodup, List.all_eq_true, List.mem_filter, mem_allSlots, true_and,
    forall_const, and_assoc, eq_iff_iff]
  refine and_congr_right fun _ => and_congr_left fun _ => ?_
  exact ⟨fun h j k hj hk => h j hj k hk, fun h j hj k hk => h j k hj hk⟩

theorem slotLaw_iff {s : State} : SlotLaw s ↔ ∀ i, slotsLawful (s.input i) = true :=
  ⟨fun h i => h i (mem_allInputs i), fun h i _ => h i⟩

theorem slotCombination_empty : slotCombination .empty = true := rfl

/-- A slot with a holder is READY (R74). -/
theorem slotCombination_held {z : Slot} (h : slotCombination z = true) (hz : 1 ≤ z.holders) : z.state = .ready := by
  unfold slotCombination at h
  cases hs : z.state with
  | free =>
    rw [hs] at h
    obtain rfl : z = .empty := by simpa using h
    simp [Slot.empty] at hz
  | filling =>
    rw [hs] at h
    have : z.holders = 0 := by simpa using (Bool.and_eq_true_iff.1 h).2
    omega
  | ready => rfl

theorem slotCombination_latest {z : Slot} (h : slotCombination z = true) (hz : z.latest = true) : z.state = .ready := by
  unfold slotCombination at h
  cases hs : z.state with
  | free =>
    rw [hs] at h
    obtain rfl : z = .empty := by simpa using h
    simp [Slot.empty] at hz
  | filling => simp [hs, hz] at h
  | ready => rfl

theorem Slot.release_eq (z : Slot) :
    z.release = if z.holders ≤ 1 ∧ z.latest = false then .empty else { z with holders := z.holders - 1 } := by
  unfold Slot.release Slot.freeIfUnused
  by_cases h : z.holders ≤ 1
  · have h0 : z.holders - 1 = 0 := by omega
    cases z.latest <;> simp [h0, h]
  · have h0 : z.holders - 1 ≠ 0 := by omega
    simp [h0, h]

theorem Slot.release_holders (z : Slot) : z.release.holders = z.holders - 1 := by
  rw [Slot.release_eq]
  split
  · rename_i h; simp [Slot.empty]; omega
  · rfl

/-- A slot after changes of holders: freed, or as it was but for the holder count (R80, R81). -/
def SlotHeld (z w : Slot) : Prop := w = .empty ∨ w = { z with holders := w.holders }

theorem SlotHeld.refl (z : Slot) : SlotHeld z z := .inr rfl

theorem SlotHeld.release {z w : Slot} (h : SlotHeld z w) : SlotHeld z w.release := by
  rw [Slot.release_eq]
  split
  · exact .inl rfl
  · rename_i hkeep
    obtain rfl | h := h
    · exact absurd ⟨Nat.zero_le _, rfl⟩ hkeep
    · right
      rw [h]

theorem SlotHeld.acquire {z w : Slot} (h : SlotHeld z w) (hw : w.latest = true) : SlotHeld z w.acquire := by
  obtain rfl | h := h
  · cases hw
  · right
    rw [h]
    rfl

theorem SlotHeld.canonical {z w : Slot} (h : SlotHeld z w) (hz : linesCanonical z = true) : linesCanonical w = true := by
  obtain rfl | h := h
  · rfl
  · rw [h]; exact hz

/-! ### Stages of the store -/

/-- What a stage that changes latches alone does at the store: of every input it reaches the slots alone, and of a slot the holders, or frees
it; it keeps the holder counts right, and with them the slot combinations and every FILLING slot. -/
structure StoreStage (rel : Nat → Nat → Prop) (s t : State) : Prop where
  inputs : s.SameInputs t
  slots : ∀ z : SlotRef → Slot, (∀ r, SlotHeld (z r) (s.slot r)) → ∀ r, SlotHeld (z r) (t.slot r)
  held : Held rel s → Held rel t
  lawful : Held rel s → SlotLaw s → SlotLaw t ∧ ∀ r, (s.slot r).state = .filling → t.slot r = s.slot r

theorem StoreStage.trans {rel : Nat → Nat → Prop} {s t u : State} (h : StoreStage rel s t) (h' : StoreStage rel t u) : StoreStage rel s u where
  inputs := h.inputs.trans h'.inputs
  slots z hz := h'.slots z (h.slots z hz)
  held hs := h'.held (h.held hs)
  lawful hs hl := by
    obtain ⟨hlt, hft⟩ := h.lawful hs hl
    obtain ⟨hlu, hfu⟩ := h'.lawful (h.held hs) hlt
    exact ⟨hlu, fun r hr => (hfu r (hft r hr ▸ hr)).trans (hft r hr)⟩

/-- A stage that leaves the inputs, and latches fewer slots or the same. -/
theorem StoreStage.of_inputs {rel : Nat → Nat → Prop} {s t : State} (hinputs : ∀ i, t.input i = s.input i)
    (hheld : ∀ r, rel (holderCount s r) (s.slot r).holders → rel (holderCount t r) (s.slot r).holders) : StoreStage rel s t where
  inputs := .of_eq hinputs
  slots z hz r := by simpa only [State.slot, hinputs] using hz r
  held hs r := by simpa only [State.slot, hinputs] using hheld r (hs r)
  lawful _ hl := ⟨slotLaw_iff.2 fun i => hinputs i ▸ slotLaw_iff.1 hl i, fun r _ => by simp only [State.slot, hinputs]⟩

theorem StoreStage.of_same {rel : Nat → Nat → Prop} {s t : State} (hinputs : ∀ i, t.input i = s.input i)
    (hlatch : ∀ k, t.latchOf k = s.latchOf k) : StoreStage rel s t :=
  .of_inputs hinputs fun r hr => holderCount_congr hlatch r ▸ hr

theorem StoreStage.refl {rel : Nat → Nat → Prop} (s : State) : StoreStage rel s s := .of_same (fun _ => rfl) fun _ => rfl

theorem State.setLatch_latchOf (s : State) (h k : Handle) (after : Option SlotRef) :
    (s.setLatch h after).latchOf k = if k = h then (s.placement h).bind (fun _ => after) else s.latchOf k := by
  unfold State.latchOf
  rw [State.setLatch_placement]
  split
  · cases s.placement h <;> rfl
  · rfl

/-- A change of latch at the slots (R80, R81). -/
theorem State.setLatch_slot_eq {s : State} {h : Handle} {p : Placement} (hp : s.placement h = some p) (after : Option SlotRef) (r : SlotRef) :
    (s.setLatch h after).slot r =
      if s.latchOf h = after then s.slot r
      else if s.latchOf h = some r then (s.slot r).release
      else if after = some r then (s.slot r).acquire
      else s.slot r := by
  have hl : s.latchOf h = p.latched := by simp [State.latchOf, hp]
  rw [State.setLatch_slot, hp, hl]
  exact State.moveHolder_slot ..

/-- A release or a latch of a latest slot is a stage of the store (R80, R81). -/
theorem State.setLatch_storeStage {rel : Nat → Nat → Prop} (hrel : HolderRel rel) {s : State} {h : Handle} {after : Option SlotRef}
    (hafter : after = none ∨ after = s.latchOf h ∨ ∃ r, after = some r ∧ (s.slot r).latest = true) : StoreStage rel s (s.setLatch h after) := by
  cases hp : s.placement h with
  | none =>
    have he : s.setLatch h after = s := by unfold State.setLatch; rw [hp]
    rw [he]
    exact .refl s
  | some p =>
    have hslot := State.setLatch_slot_eq hp after
    have hlatch : ∀ k, (s.setLatch h after).latchOf k = if k = h then after else s.latchOf k := fun k => by
      rw [State.setLatch_latchOf, hp]; rfl
    have hlatest : ∀ r, after = some r → s.latchOf h ≠ after → (s.slot r).latest = true := by
      rintro r rfl hne
      obtain h0 | h0 | ⟨x, hx, hxl⟩ := hafter
      · cases h0
      · exact absurd h0.symm hne
      · exact Option.some.inj hx ▸ hxl
    refine ⟨s.setLatch_sameInputs h after, fun z hz r => ?_, fun hs r => ?_, fun hs hl => ?_⟩
    · rw [hslot]
      split_ifs with h1 h2 h3
      · exact hz r
      · exact (hz r).release
      · exact (hz r).acquire (hlatest r h3 h1)
      · exact hz r
    · have hcount := holderCount_change hlatch r
      rw [hslot]
      split_ifs with h1 h2 h3
      · rw [h1] at hcount
        have : holderCount (s.setLatch h after) r = holderCount s r := by omega
        rw [this]
        exact hs r
      · have hne : after ≠ some r := fun e => h1 (h2.trans e.symm)
        rw [if_pos h2, if_neg hne] at hcount
        have hpos := hs.holders_pos hrel h2
        rw [Slot.release_holders]
        refine hrel.succ.1 ?_
        rw [Nat.sub_add_cancel hpos, hcount]
        exact hs r
      · rw [if_neg h2, if_pos h3] at hcount
        rw [show holderCount (s.setLatch h after) r = holderCount s r + 1 by omega]
        exact hrel.succ.2 (hs r)
      · rw [if_neg h2, if_neg h3] at hcount
        rw [show holderCount (s.setLatch h after) r = holderCount s r by omega]
        exact hs r
    · have hready : ∀ r, s.latchOf h = some r → (s.slot r).state = .ready := fun r hr =>
        slotCombination_held ((slotsLawful_iff.1 (slotLaw_iff.1 hl r.input)).1 r.index) (hs.holders_pos hrel hr)
      have hready' : ∀ r, after = some r → s.latchOf h ≠ after → (s.slot r).state = .ready := fun r hr hne =>
        slotCombination_latest ((slotsLawful_iff.1 (slotLaw_iff.1 hl r.input)).1 r.index) (hlatest r hr hne)
      have hcase : ∀ r, (s.setLatch h after).slot r = s.slot r ∨
          ((s.slot r).state = .ready ∧ slotCombination ((s.setLatch h after).slot r) = true ∧
            ((s.setLatch h after).slot r).state ≠ .filling ∧
            (((s.setLatch h after).slot r).latest = true → (s.slot r).latest = true)) := by
        intro r
        rw [hslot]
        split_ifs with h1 h2 h3
        · exact .inl rfl
        · right
          refine ⟨hready r h2, ?_⟩
          rw [Slot.release_eq]
          split_ifs with hfree
          · exact ⟨rfl, by simp [Slot.empty], by simp [Slot.empty]⟩
          · refine ⟨?_, by simp [hready r h2], id⟩
            simp only [slotCombination, hready r h2, Bool.or_eq_true, decide_eq_true_eq]
            cases hlt : (s.slot r).latest with
            | true => exact .inl rfl
            | false => exact .inr (by simp only [hlt, and_true] at hfree; omega)
        · right
          refine ⟨hready' r h3 h1, ?_, by simp [Slot.acquire, hready' r h3 h1], fun _ => hlatest r h3 h1⟩
          simp [slotCombination, Slot.acquire, hready' r h3 h1, hlatest r h3 h1]
        · exact .inl rfl
      refine ⟨slotLaw_iff.2 fun i => slotsLawful_iff.2 ?_, fun r hr => ?_⟩
      · obtain ⟨hcomb, hone, hfill⟩ := slotsLawful_iff.1 (slotLaw_iff.1 hl i)
        have hopen : ((s.setLatch h after).input i).openFrame = (s.input i).openFrame := by rw [s.setLatch_sameInputs h after i]
        have hkeep : ∀ k, (((s.setLatch h after).input i).slots.get k).latest = true → ((s.input i).slots.get k).latest = true := by
          intro k hk
          obtain he | ⟨-, -, -, hlt⟩ := hcase ⟨i, k⟩
          · exact (congrArg Slot.latest he).symm.trans hk
          · exact hlt hk
        refine ⟨fun k => ?_, fun j k hj hk => hone j k (hkeep j hj) (hkeep k hk), fun k => ?_⟩
        · obtain he | ⟨-, hc, -⟩ := hcase ⟨i, k⟩
          · exact (congrArg slotCombination he).trans (hcomb k)
          · exact hc
        · rw [hopen, ← hfill k]
          obtain he | ⟨hr, -, hnf, -⟩ := hcase ⟨i, k⟩
          · rw [show ((s.setLatch h after).input i).slots.get k = (s.input i).slots.get k from he]
          · exact iff_of_false hnf fun e => by rw [show ((s.input i).slots.get k).state = .ready from hr] at e; cases e
      · obtain he | ⟨hready, -⟩ := hcase r
        · exact he
        · rw [hr] at hready; cases hready

end Sys2Proof.Machine
end


section
/-! SUPPORT. The five stages of a composer's frame start, and a domain frame start, as stages of the picture store (R39, R80, R81, R90). -/

namespace Sys2Proof.Machine
open Sys2Proof.Safety

/-! ### The state after a write of a record -/

theorem StoreStage.of_placement {rel : Nat → Nat → Prop} {s t : State} (hinputs : ∀ i, t.input i = s.input i)
    (hplace : ∀ k, t.placement k = s.placement k) : StoreStage rel s t :=
  .of_same hinputs fun k => congrArg (Option.bind · Placement.latched) (hplace k)

/-- A write of one record that keeps its latch is no change at the store. -/
theorem State.modPlacement_storeStage {rel : Nat → Nat → Prop} (s : State) (h : Handle) {f : Placement → Placement}
    (hf : ∀ p, (f p).latched = p.latched) : StoreStage rel s (s.modPlacement h f) := by
  refine .of_same (fun i => by simp) fun k => ?_
  unfold State.latchOf
  rw [State.modPlacement_placement]
  split
  · rename_i hk
    subst hk
    cases s.placement k <;> simp [hf]
  · rfl

theorem State.sourceChanged_storeStage {rel : Nat → Nat → Prop} (hrel : HolderRel rel) (s : State) (h : Handle) :
    StoreStage rel s (s.sourceChanged h) :=
  (s.setLatch_storeStage hrel (.inl rfl)).trans (State.modPlacement_storeStage _ h fun _ => rfl)

/-- A record that becomes FREE releases its slot (R42). -/
theorem State.freeRecord_storeStage {rel : Nat → Nat → Prop} (hrel : HolderRel rel) (s : State) (h : Handle) :
    StoreStage rel s (s.freeRecord h) := by
  refine (s.setLatch_storeStage hrel (h := h) (after := none) (.inl rfl)).trans (.of_same (fun i => by simp [State.freeRecord]) fun k => ?_)
  rw [State.setLatch_latchOf]
  unfold State.latchOf
  rw [State.freeRecord_placement]
  split
  · cases s.placement h <;> rfl
  · rfl

/-! ### Application -/

/-- The relation holds on when a latch is dropped. -/
def Drops (rel : Nat → Nat → Prop) : Prop := ∀ a b, rel (a + 1) b → rel a b

/-- A record that joins has no latch to drop, unless a latch may be dropped (R12, R41). -/
theorem State.join_storeStage {rel : Nat → Nat → Prop} {s : State} {h : Handle} {p : Placement} (n : Nat)
    (hp : s.placement h = some p) (hdrop : Drops rel ∨ p.latched = none) : StoreStage rel s (s.modPlacement h (Placement.join n)) := by
  have hlatch : ∀ k, (s.modPlacement h (Placement.join n)).latchOf k = if k = h then none else s.latchOf k := by
    intro k
    unfold State.latchOf
    rw [State.modPlacement_placement]
    split
    · cases s.placement h <;> rfl
    · rfl
  refine .of_inputs (fun i => by simp) fun r hr => ?_
  have hcount := holderCount_change hlatch r
  simp only [reduceCtorEq, if_false, Nat.add_zero] at hcount
  by_cases hl : s.latchOf h = some r
  · rw [if_pos hl] at hcount
    obtain hd | hnone := hdrop
    · exact hd _ _ (hcount.symm ▸ hr)
    · rw [State.latchOf, hp, Option.bind_some, hnone] at hl
      cases hl
  · rw [if_neg hl, Nat.add_zero] at hcount
    rw [hcount]
    exact hr

/-- Application of one record, and what a NEW record is after it (R40 to R42). -/
theorem State.applyRecord_storeStage {rel : Nat → Nat → Prop} (hrel : HolderRel rel) (n : Nat) {s : State} (h : Handle)
    (hnew : Drops rel ∨ NewLaw s) : StoreStage rel s (State.applyRecord n s h) ∧ (Drops rel ∨ NewLaw (State.applyRecord n s h)) := by
  constructor
  · unfold State.applyRecord
    split
    · exact .refl s
    · rename_i p hp
      split_ifs with hretired
      · exact s.freeRecord_storeStage hrel h
      · split
        · rename_i hc
          refine State.join_storeStage n hp (hnew.imp id fun hl => ?_)
          obtain ⟨-, -, -, -, hlatched, -⟩ := hl h p hp hc
          exact hlatched
        · have htaken : StoreStage rel s (s.modPlacement h Placement.takeStaged) := s.modPlacement_storeStage h fun _ => rfl
          dsimp only
          split_ifs
          · exact htaken
          · exact htaken.trans (State.sourceChanged_storeStage hrel _ h)
  · refine hnew.imp id fun hl => newLaw_iff.2 fun k q hq => ?_
    rw [State.applyRecord_placement] at hq
    split at hq
    · obtain ⟨p, hp, hpq⟩ := Option.bind_eq_some_iff.1 hq
      exact newRecord_kept.apply n p q (newLaw_iff.1 hl h p hp) hpq
    · exact newLaw_iff.1 hl k q hq

/-- Step 1 of R39 at the store. -/
theorem State.applyArmed_storeStage {rel : Nat → Nat → Prop} (hrel : HolderRel rel) {s : State} (sc : Screen) (n : Nat)
    (hnew : Drops rel ∨ NewLaw s) : StoreStage rel s (s.applyArmed sc n) := by
  obtain ⟨-, he⟩ | ⟨t, l, -, -, ht, -, he⟩ := s.applyArmed_eq sc n
  · rw [he]; exact .refl s
  · have hfold : StoreStage rel s t ∧ (Drops rel ∨ NewLaw t) := by
      rw [ht]
      refine foldl_keeps (P := fun b => StoreStage rel s b ∧ (Drops rel ∨ NewLaw b)) _ ⟨.refl s, hnew⟩ fun b h hb => ?_
      obtain ⟨hstage, hnew⟩ := State.applyRecord_storeStage hrel n h hb.2
      exact ⟨hb.1.trans hstage, hnew⟩
    rw [he]
    refine hfold.1.trans (.of_same (fun i => by simp [State.renumber_input]) fun k => ?_)
    obtain ⟨j, hj⟩ := t.renumber_placement_exists 0 l k
    unfold State.latchOf
    simp only [State.raise_rest, State.modComposer_placement, hj]
    cases t.placement k <;> rfl

/-! ### Choices, freeze requests and view decisions -/

theorem State.takeChoice_storeStage {rel : Nat → Nat → Prop} (hrel : HolderRel rel) (s : State) (sc : Screen) :
    StoreStage rel s (s.takeChoice sc) := by
  have hlinks : ∀ (u : State) f, StoreStage rel u (u.modLink sc f) := fun u f => .of_placement (fun i => by simp) fun k => by simp
  have hraise : ∀ (u : State) x, StoreStage rel u (u.raise x) := fun u x => .of_placement (fun i => by simp) fun k => by simp
  unfold State.takeChoice
  split_ifs
  · split
    · exact .refl s
    · dsimp only
      split
      · rename_i h m i _
        have hchosen : StoreStage rel (s.modLink sc fun l => { l with pendingChoice := none })
            (((s.modLink sc fun l => { l with pendingChoice := none }).modPlacement h (Placement.choose i)).advanceGeneration h) :=
          (State.modPlacement_storeStage _ h (f := Placement.choose i) fun _ => rfl).trans (.of_placement (fun i => by simp) fun k => by simp)
        unfold State.applyChoice
        dsimp only
        split_ifs
        · exact (hlinks s _).trans (hchosen.trans (hraise _ _))
        · exact (hlinks s _).trans (hchosen.trans ((State.sourceChanged_storeStage hrel _ h).trans (hraise _ _)))
      · exact (hlinks s _).trans (hlinks _ _)
  · exact .refl s

theorem State.takeFreeze_storeStage {rel : Nat → Nat → Prop} (hrel : HolderRel rel) (s : State) (h : Handle) :
    StoreStage rel s (s.takeFreeze h) := by
  unfold State.takeFreeze
  split
  · exact .refl s
  · split
    · exact .refl s
    · exact s.modPlacement_storeStage h fun _ => rfl
    · have htaken : StoreStage rel s (s.modPlacement h fun p => { p with freezeRequest := none, frozen := true }) :=
        s.modPlacement_storeStage h fun _ => rfl
      dsimp only
      split_ifs
      · exact htaken.trans (State.setLatch_storeStage hrel (.inl rfl))
      · exact htaken

/-- The latest slot of a fit source carries the mark (R62, R80). -/
theorem State.answer_latest {s : State} {i : InputId} {r : SlotRef} {n : Nat} (h : (s.answer i).fitSlot = some (r, n)) :
    (s.slot r).latest = true := by
  unfold SourceAnswer.fitSlot State.answer at h
  dsimp only at h
  split at h
  · obtain ⟨k, hk, hkr⟩ := Option.map_eq_some_iff.1 h
    obtain ⟨rfl, -⟩ := Prod.mk.inj hkr
    exact List.find?_some (p := fun k => ((s.input i).slots.get k).latest) hk
  · cases h

/-- A view decision gives up the slot, keeps it, or takes a fit source's latest slot (R126 to R136). -/
theorem viewDecision_slot (p : Placement) (m : Image) (answers : InputId → SourceAnswer) :
    (viewDecision p m answers).slot = none ∨ (viewDecision p m answers).slot = p.latched ∨
    ∃ i r n, (answers i).fitSlot = some (r, n) ∧ (viewDecision p m answers).slot = some r := by
  obtain ⟨-, he⟩ | ⟨-, -, he⟩ | ⟨i, -, -, ⟨r, n, hr, -, he⟩ | ⟨-, he⟩⟩ := viewDecision_cases p m answers
  · rw [he]; exact .inr (.inl rfl)
  · rw [he]; exact .inl rfl
  · rw [he]; exact .inr (.inr ⟨i, r, n, hr, rfl⟩)
  · rw [he]
    obtain ⟨-, r, hr, -, hs⟩ | ⟨-, j, r, n, -, hr, hs⟩ | ⟨-, hs⟩ | ⟨-, hs⟩ :=
      substitute_cases (i := i) (m := m) (held := candidate p (answers i)) (answers := answers)
    · dsimp only
      rw [hs]
      unfold candidate at hr
      split at hr
      · rename_i r' n hfit
        exact .inr (.inr ⟨i, r', n, hfit, hr.symm⟩)
      · exact .inr (.inl hr.symm)
    · exact .inr (.inr ⟨j, r, n, hr, congrArg Prod.snd hs⟩)
    · exact .inl (congrArg Prod.snd hs)
    · exact .inl (congrArg Prod.snd hs)

theorem State.decideView_storeStage {rel : Nat → Nat → Prop} (hrel : HolderRel rel) (s : State) (h : Handle) :
    StoreStage rel s (s.decideView h) := by
  unfold State.decideView
  split
  · exact .refl s
  · rename_i p hp
    split
    · exact .refl s
    · rename_i m _
      have hlatch : StoreStage rel s (s.setLatch h (viewDecision p m s.answer).slot) := by
        refine State.setLatch_storeStage hrel ?_
        obtain hnone | hsame | ⟨i, r, n, hr, hslot⟩ := viewDecision_slot p m s.answer
        · exact .inl hnone
        · exact .inr (.inl (by rw [hsame, State.latchOf, hp]; rfl))
        · exact .inr (.inr ⟨r, hslot, State.answer_latest hr⟩)
      unfold State.writeDecision
      refine hlatch.trans ((State.modPlacement_storeStage _ h
        (f := fun q => { q with
          view := some (viewDecision p m s.answer).view, age := (viewDecision p m s.answer).age
          lastFrame := (viewDecision p m s.answer).lastFrame }) fun _ => rfl).trans ?_)
      exact .of_placement (fun i => by simp) fun k => by simp

/-! ### The frame start -/

/-- A composer's frame start at the store (R39). -/
theorem State.composerStart_storeStage {rel : Nat → Nat → Prop} (hrel : HolderRel rel) {s : State} (sc : Screen) (n : Nat)
    (hnew : Drops rel ∨ NewLaw s) : StoreStage rel s (s.composerStart sc n) := by
  have hfreezes : ∀ u : State, StoreStage rel u (u.takeFreezes sc) := fun u =>
    foldl_keeps _ (.refl u) fun b h hb => hb.trans (b.takeFreeze_storeStage hrel h)
  have hviews : ∀ u : State, StoreStage rel u (u.decideViews sc) := fun u =>
    foldl_keeps _ (.refl u) fun b h hb => hb.trans (b.decideView_storeStage hrel h)
  have htone : ∀ u : State, StoreStage rel u (u.takeTone sc) := fun u => .of_placement (fun i => by simp) fun k => by simp
  have hbegin : ∀ u : State, StoreStage rel u (u.beginComposition sc n) := fun u =>
    .of_placement (fun i => by simp) fun k => by simp
  exact (s.applyArmed_storeStage hrel sc n hnew).trans ((State.takeChoice_storeStage hrel _ sc).trans
    ((hfreezes _).trans ((htone _).trans ((hviews _).trans (hbegin _)))))

/-- A composer's frame start keeps what a NEW record is (R12). -/
theorem State.composerStart_newLaw {s : State} (sc : Screen) (n : Nat) (h : NewLaw s) : NewLaw (s.composerStart sc n) :=
  newLaw_iff.2 (State.composerStart_keeps newRecord_kept (newLaw_iff.1 h))

/-- A domain frame start at the store (R90). -/
theorem State.domainStart_storeStage {rel : Nat → Nat → Prop} (hrel : HolderRel rel) {s : State} (d : Domain)
    (hnew : Drops rel ∨ NewLaw s) : StoreStage rel s (s.domainStart d) := by
  have hwork : StoreStage rel s (s.domainWork d) := .of_placement (fun i => by simp) fun k => by simp
  have hnewWork : Drops rel ∨ NewLaw (s.domainWork d) := hnew.imp id fun h => newLaw_iff.2 fun k p hp => newLaw_iff.1 h k p (by simpa using hp)
  refine hwork.trans ((State.composerStart_storeStage hrel (domainScreens d).1 _ hnewWork).trans
    ((State.composerStart_storeStage hrel (domainScreens d).2 ((s.domainWork d).domain d).frameNumber
      (hnewWork.imp id (State.composerStart_newLaw _ _))).trans (.of_same (s.domainStart_input d) fun k => ?_)))
  unfold State.latchOf
  rw [State.domainStart_placement]

end Sys2Proof.Machine
end


section
/-! SUPPORT. The picture store of one input through its packets and commands: slot combinations, holder counts and contents (R52, R54, R56, R58,
R70, R73 to R79), with O58. -/

namespace Sys2Proof.Machine
open Sys2Proof.Safety

/-! ### Slots -/

/-- Losing the mark in a lawful slot (R74, R78). -/
theorem Slot.unmark_lawful {z : Slot} (hz : slotCombination z = true) :
    slotCombination z.unmark = true ∧ z.unmark.holders = z.holders ∧ z.unmark.latest = false ∧
    (z.unmark.state = .filling ↔ z.state = .filling) ∧ (z.state = .filling → z.unmark = z) := by
  rw [Slot.unmark_eq]
  cases hl : z.latest with
  | false => simp [hz, hl]
  | true =>
    have hready := slotCombination_latest hz hl
    by_cases h0 : z.holders = 0
    · simp [h0, hready, Slot.empty, slotCombination]
    · simp only [if_true, h0, if_false, hready, slotCombination, Bool.false_or]
      simp
      omega

theorem slotCombination_filling {z : Slot} (h : slotCombination z = true) (hz : z.state = .filling) : z.latest = false ∧ z.holders = 0 := by
  simpa [slotCombination, hz] using h

/-- Every pixel of the slot's stored lines lies within its range (R111). -/
def Slot.PixelsWithin (z : Slot) : Prop := ∀ e ∈ z.lines, ∀ x ∈ e.2, Colour.within x = true

theorem Slot.pixelsWithin_empty : Slot.empty.PixelsWithin := by simp [Slot.PixelsWithin, Slot.empty]

theorem Slot.PixelsWithin.of_lines {z w : Slot} (h : z.PixelsWithin) (hw : w.lines = z.lines) : w.PixelsWithin := by
  unfold Slot.PixelsWithin
  rw [hw]
  exact h

theorem Slot.PixelsWithin.unmark {z : Slot} (h : z.PixelsWithin) : z.unmark.PixelsWithin := by
  rw [Slot.unmark_eq]
  split_ifs
  · exact Slot.pixelsWithin_empty
  · exact h
  · exact h

/-! ### Stages of one input -/

/-- The open frame and the stored lines of an input are in canonical form (R52, R73). -/
def LineContext (c : InputContext) : Prop := openFrameLawful c = true ∧ ∀ k, linesCanonical (c.slots.get k) = true

theorem lineLaw_iff {s : State} : LineLaw s ↔ ∀ i, LineContext (s.input i) :=
  ⟨fun h i => ⟨(h i (mem_allInputs i)).1, fun k => (h i (mem_allInputs i)).2 k (mem_allSlots k)⟩, fun h i _ => ⟨(h i).1, fun k _ => (h i).2 k⟩⟩

/-- What a row that reaches an input leaves of its part of the store: lawful slots, every holder count, canonical contents, and pixels in range. -/
structure ContextStage (c c' : InputContext) : Prop where
  lawful : slotsLawful c = true → slotsLawful c' = true
  holders : slotsLawful c = true → ∀ k, (c'.slots.get k).holders = (c.slots.get k).holders
  lines : slotsLawful c = true → LineContext c → LineContext c'
  pixels : (∀ k, (c.slots.get k).PixelsWithin) → ∀ k, (c'.slots.get k).PixelsWithin

theorem ContextStage.refl (c : InputContext) : ContextStage c c := ⟨id, fun _ _ => rfl, fun _ => id, id⟩

theorem ContextStage.trans {c d e : InputContext} (h : ContextStage c d) (h' : ContextStage d e) : ContextStage c e where
  lawful hc := h'.lawful (h.lawful hc)
  holders hc k := (h'.holders (h.lawful hc) k).trans (h.holders hc k)
  lines hc hl := h'.lines (h.lawful hc) (h.lines hc hl)
  pixels hc := h'.pixels (h.pixels hc)

/-- A context with the same slots, open frame and configuration. -/
theorem ContextStage.of_eq {c c' : InputContext} (hslots : c'.slots = c.slots) (hopen : c'.openFrame = c.openFrame)
    (hconfig : c'.config = c.config) : ContextStage c c' := by
  have hlines : openFrameLawful c' = openFrameLawful c := by unfold openFrameLawful; rw [hslots, hopen, hconfig]
  have hlaw : slotsLawful c' = slotsLawful c := by unfold slotsLawful; rw [hslots, hopen]
  exact ⟨fun h => hlaw ▸ h, fun _ k => by rw [hslots], fun _ h => ⟨hlines ▸ h.1, fun k => hslots ▸ h.2 k⟩,
    fun h k => hslots ▸ h k⟩

/-- An input without an open frame: what its slots must be. -/
theorem slotsLawful_closed {c : InputContext} (hopen : c.openFrame = none) (hcomb : ∀ k, slotCombination (c.slots.get k) = true)
    (hone : ∀ j k, (c.slots.get j).latest = true → (c.slots.get k).latest = true → j = k)
    (hfill : ∀ k, (c.slots.get k).state ≠ .filling) : slotsLawful c = true :=
  slotsLawful_iff.2 ⟨hcomb, hone, fun k => by simp [hopen, hfill k]⟩

theorem LineContext.closed {c : InputContext} (hopen : c.openFrame = none) (h : ∀ k, linesCanonical (c.slots.get k) = true) :
    LineContext c := ⟨by simp [openFrameLawful, hopen], h⟩

/-- RESET_SOURCE, and a SET_SOURCE, at the store (R70, R86). -/
theorem InputContext.restart_stage (c : InputContext) (x : SourceConfig) (m : MonitorState) :
    ContextStage c { ({ c with config := x } : InputContext).restart with monitor := m } := by
  have hget : ∀ k, ({ ({ c with config := x } : InputContext).restart with monitor := m }.slots.get k) =
      if c.openFrame.bind OpenFrame.slot = some k then .empty else (c.slots.get k).unmark := fun k => InputContext.restart_get _ k
  have hopen : ({ ({ c with config := x } : InputContext).restart with monitor := m }).openFrame = none := by rw [InputContext.restart_frame]
  refine ⟨fun h => ?_, fun h k => ?_, fun h hl => ?_, fun h k => ?_⟩
  · obtain ⟨hcomb, -, hfill⟩ := slotsLawful_iff.1 h
    have hnone : ∀ k, ({ ({ c with config := x } : InputContext).restart with monitor := m }.slots.get k).latest = false := by
      intro k
      rw [hget]
      split
      · rfl
      · exact (Slot.unmark_lawful (hcomb k)).2.2.1
    refine slotsLawful_closed hopen (fun k => ?_) (fun j k hj => by rw [hnone] at hj; cases hj) fun k => ?_
    · rw [hget]
      split
      · rfl
      · exact (Slot.unmark_lawful (hcomb k)).1
    · rw [hget]
      split
      · simp [Slot.empty]
      · rename_i hk
        exact fun e => hk ((hfill k).1 ((Slot.unmark_lawful (hcomb k)).2.2.2.1.1 e))
  · obtain ⟨hcomb, -, hfill⟩ := slotsLawful_iff.1 h
    rw [hget]
    split
    · rename_i hk
      exact (slotCombination_filling (hcomb k) ((hfill k).2 hk)).2.symm
    · exact (Slot.unmark_lawful (hcomb k)).2.1
  · refine .closed hopen fun k => ?_
    rw [hget]
    split
    · rfl
    · exact linesCanonical_unmark (hl.2 k)
  · rw [hget]
    split
    · exact Slot.pixelsWithin_empty
    · exact (h k).unmark

/-- The fall of RESETn frees the slot of an open frame alone (R184). -/
theorem InputContext.abandon_get (c : InputContext) (k : SlotIndex) :
    c.abandon.slots.get k = if c.openFrame.bind OpenFrame.slot = some k then .empty else c.slots.get k := by
  unfold InputContext.abandon
  cases hf : c.openFrame with
  | none => simp
  | some f => cases hs : f.slot <;> simp [hs, eq_comm]

/-- The fall of RESETn at the store (R184). -/
theorem InputContext.abandon_stage (c : InputContext) : ContextStage c c.abandon := by
  have hget := c.abandon_get
  have hopen : c.abandon.openFrame = none := by
    unfold InputContext.abandon
    cases hf : c.openFrame with
    | none => exact hf
    | some f => cases hs : f.slot <;> simp [hs]
  refine ⟨fun h => ?_, fun h k => ?_, fun h hl => ?_, fun h k => ?_⟩
  · obtain ⟨hcomb, hone, hfill⟩ := slotsLawful_iff.1 h
    have hlatest : ∀ k, (c.abandon.slots.get k).latest = true → (c.slots.get k).latest = true := by
      intro k hk
      rw [hget] at hk
      split at hk
      · cases hk
      · exact hk
    refine slotsLawful_closed hopen (fun k => ?_) (fun j k hj hk => hone j k (hlatest j hj) (hlatest k hk)) fun k => ?_
    · rw [hget]
      split
      · rfl
      · exact hcomb k
    · rw [hget]
      split
      · simp [Slot.empty]
      · rename_i hk
        exact fun e => hk ((hfill k).1 e)
  · obtain ⟨hcomb, -, hfill⟩ := slotsLawful_iff.1 h
    rw [hget]
    split
    · rename_i hk
      exact (slotCombination_filling (hcomb k) ((hfill k).2 hk)).2.symm
    · rfl
  · refine .closed hopen fun k => ?_
    rw [hget]
    split
    · rfl
    · exact hl.2 k
  · rw [hget]
    split
    · exact Slot.pixelsWithin_empty
    · exact h k

/-! ### The end of a frame -/

/-- A judgement writes the monitor, its runs and the bad frames total alone (R63). -/
theorem InputContext.judged_frame (c : InputContext) (good : Bool) :
    c.judged good = { c with
      monitor := (c.judged good).monitor, goodRun := (c.judged good).goodRun, badRun := (c.judged good).badRun
      badFrames := (c.judged good).badFrames } := by
  unfold InputContext.judged InputContext.goodFrame InputContext.badFrame
  cases good <;> cases c.monitor <;> (repeat' split) <;> rfl

theorem InputContext.ended_openFrame (c : InputContext) (f : OpenFrame) (good : Bool) : (c.ended f good).openFrame = none := rfl

theorem InputContext.ended_get (c : InputContext) (f : OpenFrame) (good : Bool) (k : SlotIndex) :
    (c.ended f good).slots.get k =
      if f.slot = none then c.slots.get k
      else if f.slot = some k then (c.slots.get k).unmark.finish
      else (c.slots.get k).unmark := by
  have hslots : (c.judged good).slots = c.slots := by rw [InputContext.judged_frame]
  unfold InputContext.ended
  cases hf : f.slot with
  | none => simp [hslots]
  | some j =>
    by_cases hj : k = j
    · subst hj; simp [hslots]
    · simp [hslots, hj, Ne.symm hj]

/-- The end of the open frame at the store (R58, R78, R79). -/
theorem InputContext.ended_stage {c : InputContext} {f : OpenFrame} (hf : c.openFrame = some f) (good : Bool) :
    ContextStage c (c.ended f good) := by
  have hget := c.ended_get f good
  have hopen := c.ended_openFrame f good
  refine ⟨fun h => ?_, fun h k => ?_, fun h hl => ?_, fun h k => ?_⟩
  · obtain ⟨hcomb, hone, hfill⟩ := slotsLawful_iff.1 h
    simp only [hf, Option.bind_some] at hfill
    by_cases hs : f.slot = none
    · simp only [hs, if_true] at hget
      simp only [hs, reduceCtorEq, iff_false] at hfill
      exact slotsLawful_closed hopen (fun k => hget k ▸ hcomb k) (fun j k => hget j ▸ hget k ▸ hone j k) fun k => hget k ▸ hfill k
    · simp only [hs, if_false] at hget
      have hlatest : ∀ k, ((c.ended f good).slots.get k).latest = true → f.slot = some k := by
        intro k hk
        by_contra hne
        rw [hget, if_neg hne, (Slot.unmark_lawful (hcomb k)).2.2.1] at hk
        cases hk
      refine slotsLawful_closed hopen (fun k => ?_) (fun j k hj hk => Option.some.inj ((hlatest j hj).symm.trans (hlatest k hk))) fun k => ?_
      · rw [hget]
        split
        · simp [slotCombination, Slot.finish]
        · exact (Slot.unmark_lawful (hcomb k)).1
      · rw [hget]
        split
        · simp [Slot.finish]
        · rename_i hk
          exact fun e => hk ((hfill k).1 ((Slot.unmark_lawful (hcomb k)).2.2.2.1.1 e))
  · obtain ⟨hcomb, -, -⟩ := slotsLawful_iff.1 h
    have hunmark := (Slot.unmark_lawful (hcomb k)).2.1
    rw [hget]
    split_ifs
    · rfl
    · exact hunmark
    · exact hunmark
  · refine .closed hopen fun k => ?_
    rw [hget]
    split_ifs
    · exact hl.2 k
    · exact linesCanonical_unmark (hl.2 k)
    · exact linesCanonical_unmark (hl.2 k)
  · rw [hget]
    split_ifs
    · exact h k
    · exact (h k).unmark
    · exact (h k).unmark

theorem InputContext.endedEarly_stage (c : InputContext) : ContextStage c c.endedEarly ∧ c.endedEarly.openFrame = none := by
  unfold InputContext.endedEarly
  cases hf : c.openFrame with
  | none => exact ⟨.refl c, hf⟩
  | some f => exact ⟨InputContext.ended_stage hf false, rfl⟩

/-! ### The start of a frame -/

theorem InputContext.freeSlot_eq_some {c : InputContext} {k : SlotIndex} (h : c.freeSlot = some k) : (c.slots.get k).state = .free := by
  simpa using List.find?_some h

theorem InputContext.beginFrame_openFrame (c : InputContext) (now : Time) (tag : Half) (slot : Option SlotIndex) :
    (c.beginFrame now tag slot).openFrame = some ⟨slot, [], false, periodVerdict c.config (c.previousStart.map fun t => elapsed t now)⟩ := by
  cases slot <;> rfl

theorem InputContext.beginFrame_get (c : InputContext) (now : Time) (tag : Half) (slot : Option SlotIndex) (j : SlotIndex) :
    (c.beginFrame now tag slot).slots.get j =
      if slot = some j then (c.slots.get j).allocate (nextFrameNumber c.frameNumber) c.config.width c.config.height else c.slots.get j := by
  cases slot with
  | none => rfl
  | some k =>
    simp only [Option.some.injEq, InputContext.beginFrame, InputContext.allocate_get]
    by_cases hk : j = k
    · subst hk; simp
    · simp [hk, Ne.symm hk]

theorem InputContext.beginFrame_config (c : InputContext) (now : Time) (tag : Half) (slot : Option SlotIndex) :
    (c.beginFrame now tag slot).config = c.config := by cases slot <;> rfl

/-- A frame begun on an input without one, at the store (R54, R75, R76). -/
theorem InputContext.beginFrame_stage {c : InputContext} (hnone : c.openFrame = none) (now : Time) (tag : Half) :
    ContextStage c (c.beginFrame now tag c.freeSlot) := by
  have hget := c.beginFrame_get now tag c.freeSlot
  have hopen := c.beginFrame_openFrame now tag c.freeSlot
  have hfree : ∀ {k}, slotsLawful c = true → c.freeSlot = some k → c.slots.get k = .empty := by
    intro k h hk
    have hcomb := (slotsLawful_iff.1 h).1 k
    rw [slotCombination, InputContext.freeSlot_eq_some hk] at hcomb
    simpa using hcomb
  refine ⟨fun h => ?_, fun h k => ?_, fun h hl => ⟨?_, fun k => ?_⟩, fun h k => ?_⟩
  · obtain ⟨hcomb, hone, hfill⟩ := slotsLawful_iff.1 h
    simp only [hnone, Option.bind_none, reduceCtorEq, iff_false] at hfill
    have hlatest : ∀ k, ((c.beginFrame now tag c.freeSlot).slots.get k).latest = true → (c.slots.get k).latest = true := by
      intro k hk
      rw [hget] at hk
      split at hk
      · exact hk
      · exact hk
    refine slotsLawful_iff.2 ⟨fun k => ?_, fun j k hj hk => hone j k (hlatest j hj) (hlatest k hk), fun k => ?_⟩
    · rw [hget]
      split
      · rename_i hk
        rw [hfree h hk]
        rfl
      · exact hcomb k
    · rw [hget, hopen, Option.bind_some]
      split
      · rename_i hk
        simp [hk, Slot.allocate]
      · rename_i hk
        simp [hfill k, hk]
  · rw [hget]
    split <;> rfl
  · unfold openFrameLawful
    rw [hopen, c.beginFrame_config]
    cases hs : c.freeSlot with
    | none => rfl
    | some k =>
      have hk := hget k
      rw [hs, if_pos rfl] at hk
      simp [hk, Slot.allocate]
  · rw [hget]
    split
    · rfl
    · exact hl.2 k
  · rw [hget]
    split
    · simp [Slot.PixelsWithin, Slot.allocate]
    · exact h k

theorem InputContext.frameStarted_stage (c : InputContext) (now : Time) (tag : Half) : ContextStage c (c.frameStarted now tag) := by
  obtain ⟨hearly, hnone⟩ := c.endedEarly_stage
  refine (hearly.trans (InputContext.beginFrame_stage hnone now tag)).trans ?_
  unfold InputContext.frameStarted InputContext.firstFrame
  split
  · exact .of_eq rfl rfl rfl
  · exact .refl _

/-! ### A line -/

theorem acceptedLine_eq_some {c : SourceConfig} {f : OpenFrame} {n : Nat} {field : PixelField} {px : List Colour}
    (h : acceptedLine c f n field = some px) : n < c.height ∧ px.length = c.width ∧ n ∉ f.lines := by
  unfold acceptedLine at h
  cases field with
  | ragged => cases h
  | whole raw =>
    simp only [Option.ite_none_right_eq_some] at h
    obtain ⟨⟨hn, hw, hf⟩, hpx⟩ := h
    obtain rfl := Option.some.inj hpx
    exact ⟨hn, by simpa using hw, hf⟩

theorem expandChannel_le (depth : Nat) (c : BitVec 10) : expandChannel depth c ≤ 1023 := by
  have hc := c.isLt
  unfold expandChannel
  split <;> omega

/-- Every pixel of a line that is stored is one of input expansion (R111). -/
theorem acceptedLine_within {c : SourceConfig} {f : OpenFrame} {n : Nat} {field : PixelField} {px : List Colour}
    (h : acceptedLine c f n field = some px) : ∀ x ∈ px, Colour.within x = true := by
  unfold acceptedLine at h
  cases field with
  | ragged => cases h
  | whole raw =>
    obtain ⟨-, hpx⟩ := Option.ite_none_right_eq_some.1 h
    obtain rfl := Option.some.inj hpx
    intro x hx
    obtain ⟨p, -, rfl⟩ := List.mem_map.1 hx
    simp [Colour.within, expandPixel, expandChannel_le]

theorem InputContext.takeLine_closed {c : InputContext} (hf : c.openFrame = none) (n : Nat) (field : PixelField) : c.takeLine n field = c := by
  simp [InputContext.takeLine, hf]

/-- A LINE that fails a test of R56 sets damage. -/
theorem InputContext.takeLine_discarded {c : InputContext} {f : OpenFrame} {n : Nat} {field : PixelField} (hf : c.openFrame = some f)
    (hpx : acceptedLine c.config f n field = none) : c.takeLine n field = { c with openFrame := some { f with damage := true } } := by
  simp [InputContext.takeLine, hf, hpx]

/-- The lines stored in one slot after a line is stored in another or the same (R77). -/
def InputContext.storedIn (c : InputContext) (slot : Option SlotIndex) (n : Nat) (px : List Colour) : PerSlot Slot :=
  match slot with
  | none => c.slots
  | some k => c.slots.set k { c.slots.get k with lines := storeLine (c.slots.get k).lines n px }

theorem InputContext.storedIn_get (c : InputContext) (slot : Option SlotIndex) (n : Nat) (px : List Colour) (j : SlotIndex) :
    (c.storedIn slot n px).get j =
      if slot = some j then { c.slots.get j with lines := storeLine (c.slots.get j).lines n px } else c.slots.get j := by
  cases slot with
  | none => rfl
  | some k =>
    by_cases hj : j = k
    · subst hj; simp [InputContext.storedIn]
    · simp [InputContext.storedIn, hj, Ne.symm hj]

/-- A LINE that passes joins lines received and, where the open frame has a slot, its pixels are stored there (R56, R77). -/
theorem InputContext.takeLine_accepted {c : InputContext} {f : OpenFrame} {n : Nat} {field : PixelField} {px : List Colour}
    (hf : c.openFrame = some f) (hpx : acceptedLine c.config f n field = some px) :
    c.takeLine n field = { c with openFrame := some { f with lines := insertLine f.lines n }, slots := c.storedIn f.slot n px } := by
  cases hs : f.slot <;> simp [InputContext.takeLine, hf, hpx, hs, InputContext.storedIn]

/-- A LINE at the store (R56, R77). -/
theorem InputContext.takeLine_stage (c : InputContext) (n : Nat) (field : PixelField) : ContextStage c (c.takeLine n field) := by
  cases hf : c.openFrame with
  | none => rw [InputContext.takeLine_closed hf]; exact .refl c
  | some f =>
    cases hpx : acceptedLine c.config f n field with
    | none =>
      rw [InputContext.takeLine_discarded hf hpx]
      refine ⟨fun h => ?_, fun _ _ => rfl, fun _ hl => ⟨?_, hl.2⟩, id⟩
      · have hlaw := slotsLawful_iff.1 h
        rw [hf] at hlaw
        exact slotsLawful_iff.2 hlaw
      · have hopen := hl.1
        unfold openFrameLawful at hopen ⊢
        rw [hf] at hopen
        exact hopen
    | some px =>
      obtain ⟨hn, hw, hnew⟩ := acceptedLine_eq_some hpx
      rw [InputContext.takeLine_accepted hf hpx]
      have hget := c.storedIn_get f.slot n px
      have hsame : ∀ j, ((c.storedIn f.slot n px).get j).state = (c.slots.get j).state ∧
          ((c.storedIn f.slot n px).get j).latest = (c.slots.get j).latest ∧
          ((c.storedIn f.slot n px).get j).holders = (c.slots.get j).holders := by
        intro j
        rw [hget]
        split <;> exact ⟨rfl, rfl, rfl⟩
      refine ⟨fun h => ?_, fun _ j => (hsame j).2.2, fun h hl => ?_, fun h j => ?_⟩
      · obtain ⟨hcomb, hone, hfill⟩ := slotsLawful_iff.1 h
        simp only [hf, Option.bind_some] at hfill
        refine slotsLawful_iff.2 ⟨fun j => ?_, fun i j hi hj => hone i j ((hsame i).2.1 ▸ hi) ((hsame j).2.1 ▸ hj), fun j => ?_⟩
        · dsimp only
          rw [hget]
          split
          · rename_i hj
            have hfilling := (hfill j).2 hj
            have hj := hcomb j
            unfold slotCombination at hj ⊢
            simpa [hfilling] using hj
          · exact hcomb j
        · dsimp only
          rw [(hsame j).1]
          exact hfill j
      · have hopen := hl.1
        simp only [openFrameLawful, hf, Bool.and_eq_true, decide_eq_true_eq, List.all_eq_true] at hopen
        obtain ⟨⟨hrising, hbelow⟩, hslot⟩ := hopen
        refine ⟨?_, fun j => ?_⟩
        · have hbelow' : ∀ m ∈ insertLine f.lines n, m < c.config.height := by
            intro m hm
            obtain rfl | hm := mem_insertLine.1 hm
            · exact hn
            · exact hbelow m hm
          simp only [openFrameLawful, Bool.and_eq_true, decide_eq_true_eq, List.all_eq_true]
          refine ⟨⟨insertLine_sorted n hrising, hbelow'⟩, ?_⟩
          cases hs : f.slot with
          | none => rfl
          | some k =>
            simp only [hs, Bool.and_eq_true, decide_eq_true_eq] at hslot
            obtain ⟨hgeometry, hlines⟩ := hslot
            simp only [InputContext.storedIn_get, if_true, Bool.and_eq_true, decide_eq_true_eq]
            exact ⟨hgeometry, by rw [storeLine_keys, hlines]⟩
        · dsimp only
          rw [hget]
          split
          · rename_i hj
            simp only [hj, Bool.and_eq_true, decide_eq_true_eq] at hslot
            exact linesCanonical_store (hl.2 j) hslot.1 hn hw
          · exact hl.2 j
      · dsimp only
        rw [hget]
        split
        · intro e he
          obtain rfl | he := mem_storeLine he
          · exact acceptedLine_within hpx
          · exact h j e he
        · exact h j

theorem InputContext.expired_stage (c : InputContext) (now : Time) : ContextStage c (c.expired now) := by
  unfold InputContext.expired
  cases hf : c.openFrame with
  | none =>
    have hbad : c.badFrame = c.judged false := rfl
    dsimp only
    rw [hbad, InputContext.judged_frame]
    exact .of_eq rfl rfl rfl
  | some f => exact (InputContext.ended_stage hf false).trans (.of_eq rfl rfl rfl)

end Sys2Proof.Machine
end


section
/-! SUPPORT. Every row at the picture store, with O58 (R52, R73, R74, R80 to R82). -/

namespace Sys2Proof.Machine
open Sys2Proof.Safety

/-- What a row does at the store: the release of RESETn empties it; a frame start and a RETIRE of a NEW record change latches; any other row
keeps every latch and works on the inputs one by one. -/
inductive StoreMove (s t : State) : Prop
  | emptied (hinputs : ∀ i, t.input i = .reset) (hnone : ∀ k, t.placement k = none)
  | latches (h : ∀ rel, HolderRel rel → (Drops rel ∨ NewLaw s) → StoreStage rel s t)
  | inputs (h : ∀ i, ContextStage (s.input i) (t.input i)) (hlatch : ∀ k, t.latchOf k = s.latchOf k)

theorem Effect.storeMove {s t : State} {c : Instr} (h : Effect s c t) : StoreMove s t := by
  have same : ∀ {u : State}, (∀ i, u.input i = s.input i) → ∀ i, ContextStage (s.input i) (u.input i) := fun hu i => hu i ▸ .refl _
  have one : ∀ {u : State} {i : InputId} {x : InputContext}, (∀ j, u.input j = if j = i then x else s.input j) →
      ContextStage (s.input i) x → ∀ j, ContextStage (s.input j) (u.input j) := by
    intro u i x hu hstage j
    rw [hu]
    split
    · rename_i hj; exact hj ▸ hstage
    · exact .refl _
  have keep : ∀ {u : State}, (∀ k, u.placement k = s.placement k) → ∀ k, u.latchOf k = s.latchOf k := fun hu k =>
    congrArg (Option.bind · Placement.latched) (hu k)
  have write : ∀ {u : State} {h : Handle} (f : Placement → Placement), (∀ p, (f p).latched = p.latched) →
      (∀ k, u.placement k = if k = h then (s.placement h).map f else s.placement k) → ∀ k, u.latchOf k = s.latchOf k := by
    intro u h f hf hu k
    unfold State.latchOf
    rw [hu]
    split
    · rename_i hk
      rw [hk]
      cases s.placement h <;> simp [hf]
    · rfl
  have map : ∀ {u : State} (f : Placement → Placement), (∀ p, (f p).latched = p.latched) →
      (∀ k, u.placement k = (s.placement k).map f) → ∀ k, u.latchOf k = s.latchOf k := by
    intro u f hf hu k
    unfold State.latchOf
    rw [hu]
    cases s.placement k <;> simp [hf]
  cases h with
  | resetReleased => exact StoreMove.emptied (fun i => reset_input i) fun k => reset_placement k
  | @domainStarted _ d => exact .latches fun rel hrel hnew => s.domainStart_storeStage hrel d hnew
  | @freed _ _ _ h => exact .latches fun rel hrel _ => (s.freeRecord_storeStage hrel h).trans (.of_placement (fun i => rfl) fun k => rfl)
  | resetAsserted =>
    exact .inputs (fun i => by rw [s.assertReset_input]; exact InputContext.abandon_stage _) (map disarm (fun _ => rfl) fun k => by
      rw [← State.record_body s.assertReset, State.assertReset_record])
  | @armed _ named =>
    exact .inputs (same fun i => by simp) (map (armRecord named) (fun p => by unfold armRecord; split <;> rfl) fun k => by
      rw [State.respond_placement, State.arm_placement])
  | @opened _ _ _ _ sc cls sel m h _ himage hcheck hfree hcount =>
    refine .inputs (same fun i => by simp) fun k => ?_
    have hnone := (State.lowestFree_eq_some.1 hfree).1
    by_cases hk : k = h
    · simp [State.latchOf, hk, hnone, Placement.opened]
    · simp [State.latchOf, hk]
  | @amended _ _ _ _ h _ m => exact .inputs (same fun i => by simp) (write (h := h) (fun p => { p with staged := m }) (fun _ => rfl) fun k => by simp)
  | @retired _ _ _ h =>
    exact .inputs (same fun i => by simp) (write (h := h) (fun p => { p with retireStaged := true }) (fun _ => rfl) fun k => by simp)
  | @freezeRequested _ h _ r =>
    exact .inputs (same fun i => by simp) (write (h := h) (fun p => { p with freezeRequest := some r }) (fun _ => rfl) fun k => by simp)
  | @sourceConfigured _ _ _ _ _ _ _ _ i x =>
    exact .inputs (one (fun j => State.configured_input s i j x) (InputContext.restart_stage _ x _)) (keep fun k => by simp)
  | @sourceRestarted _ i =>
    exact .inputs (one (fun j => (State.restartSource_input ..).trans rfl) (InputContext.restart_stage _ (s.input i).config _))
      (keep fun k => by simp)
  | frameStarted =>
    exact .inputs (one (fun j => State.frameStart_input_eq ..) (InputContext.frameStarted_stage _ _ _))
      (keep fun k => by rw [State.reportStarts_frame]; simp)
  | lineTaken => exact .inputs (one (fun j => State.modInput_input ..) (InputContext.takeLine_stage _ _ _)) (keep fun k => by simp)
  | frameEnded hf => exact .inputs (one (fun j => State.endFrame_input_eq ..) (InputContext.ended_stage hf _)) (keep fun k => by simp)
  | expired => exact .inputs (one (fun j => State.expire_input_eq ..) (InputContext.expired_stage _ _)) (keep fun k => by simp)
  | unchanged => exact .inputs (same fun i => rfl) (keep fun k => rfl)
  | answered => exact .inputs (same fun i => rfl) (keep fun k => rfl)
  | screenConfigured | toneStored | linkEnabled | linkDisabled | linkReset | resetRenewed | domainSet | lineHanded | returnTaken =>
    exact .inputs (same fun i => by simp) (keep fun k => by simp)
  | noticeTaken | masked | fetched => exact .inputs (same fun i => rfl) (keep fun k => rfl)

end Sys2Proof.Machine

namespace Sys2Proof.Safety
open Sys2Proof.Machine

theorem reset_slotsLawful : slotsLawful .reset = true := by decide

theorem reset_lineContext : LineContext .reset := ⟨rfl, fun k => by cases k <;> rfl⟩

theorem holderCount_none {t : State} (h : ∀ k, t.placement k = none) (r : SlotRef) : holderCount t r = 0 := by
  rw [holderCount_eq, List.length_eq_zero_iff, List.filter_eq_nil_iff]
  intro k _
  simp [State.latchOf, h k]

/-- Every row keeps the holder counts and the slot combinations (R74, R80). -/
theorem holderLaw_effect {s t : State} {c : Instr} (h : Effect s c t) (hnew : NewLaw s) (hheld : HolderLaw s) (hslots : SlotLaw s) :
    HolderLaw t ∧ SlotLaw t := by
  rw [holderLaw_iff] at hheld ⊢
  cases h.storeMove with
  | emptied hinputs hnone =>
    refine ⟨fun r => ?_, slotLaw_iff.2 fun i => by rw [hinputs]; exact reset_slotsLawful⟩
    rw [holderCount_none hnone, State.slot, hinputs]
    cases r.index <;> rfl
  | latches hstage =>
    have hstage := hstage _ holderRel_eq (.inr hnew)
    exact ⟨hstage.held hheld, (hstage.lawful hheld hslots).1⟩
  | inputs hinputs hlatch =>
    have hlaw := slotLaw_iff.1 hslots
    exact ⟨hheld.of_same hlatch fun r => (hinputs r.input).holders (hlaw r.input) r.index,
      slotLaw_iff.2 fun i => (hinputs i).lawful (hlaw i)⟩

/-- Every row keeps the contents of the store canonical; for this the holder counts need be no more than right, so that no open frame's slot
is ever given up (R52, R73). -/
theorem lineLaw_effect {s t : State} {c : Instr} (h : Effect s c t) (hheld : HolderLaw s) (hslots : SlotLaw s) (hs : LineLaw s) : LineLaw t := by
  have hlines := lineLaw_iff.1 hs
  refine lineLaw_iff.2 fun i => ?_
  cases h.storeMove with
  | emptied hinputs hnone => rw [hinputs]; exact reset_lineContext
  | inputs hinputs hlatch => exact (hinputs i).lines (slotLaw_iff.1 hslots i) (hlines i)
  | latches hstage =>
    have hstage := hstage _ holderRel_le (.inl fun a b hab => (Nat.le_succ a).trans hab)
    have hle : Held (· ≤ ·) s := fun r => (holderLaw_iff.1 hheld r).le
    obtain ⟨-, hfilling⟩ := hstage.lawful hle hslots
    have hheldSlot := hstage.slots s.slot fun r => .refl _
    obtain ⟨hopen, hcanonical⟩ := hlines i
    have hsame : (t.input i).openFrame = (s.input i).openFrame ∧ (t.input i).config = (s.input i).config := by
      rw [hstage.inputs i]; exact ⟨rfl, rfl⟩
    refine ⟨?_, fun k => (hheldSlot ⟨i, k⟩).canonical (hcanonical k)⟩
    unfold openFrameLawful at hopen ⊢
    rw [hsame.1, hsame.2]
    cases hf : (s.input i).openFrame with
    | none => rfl
    | some f =>
      rw [hf] at hopen
      cases hk : f.slot with
      | none => simpa [hk] using hopen
      | some k =>
        have hstate : ((s.input i).slots.get k).state = .filling :=
          ((slotsLawful_iff.1 (slotLaw_iff.1 hslots i)).2.2 k).2 (by rw [hf]; exact hk)
        have hslot : (t.input i).slots.get k = (s.input i).slots.get k := hfilling ⟨i, k⟩ hstate
        simpa [hk, hslot] using hopen

/-- Settles O58: the laws of the store by what a row does there, which is a change of latches or a stage of one input. -/
theorem stepKeepsThePictureStore : Obligations.StepKeepsThePictureStore := by
  intro s t hheld hslots hstep
  refine ⟨fun hnew => ?_, fun hlines => ?_⟩
  · refine (step_keeps (P := fun s => NewLaw s ∧ HolderLaw s ∧ SlotLaw s) (fun s t hst hs => ?_) (fun _ _ _ h hs => ?_) hstep
      ⟨hnew, hheld, hslots⟩).2
    · obtain ⟨a, b, c, rfl⟩ := hst.exists
      exact hs
    · obtain ⟨hnew, hheld, hslots⟩ := hs
      exact ⟨newLaw_effect h hnew, holderLaw_effect h hnew hheld hslots⟩
  · obtain hst | ⟨u, c, hsu, hut⟩ := step_cases hstep
    · obtain ⟨a, b, c, rfl⟩ := hst.exists
      exact hlines
    · obtain ⟨a, b, c', rfl⟩ := hsu.exists
      exact lineLaw_effect hut hheld hslots hlines

end Sys2Proof.Safety
end


section
/-! SUPPORT. The ranges of an input's context through every row (R51, R60 to R63). -/

namespace Sys2Proof.Machine
open Sys2Proof.Safety

/-- The parts of an input's context within their ranges (R51, R63, R67). -/
structure InputInRange (c : InputContext) : Prop where
  config : c.config.inRange.all id = true
  goodRun : c.goodRun < c.config.lockCount
  badRun : c.badRun < c.config.lossCount
  frameNumber : c.frameNumber ≤ 65535
  badFrames : c.badFrames ≤ 65535
  dropped : c.dropped ≤ 65535
  absent : c.monitor = .absent → c.timer = none ∧ c.openFrame = none ∧ c.frameNumber = 0 ∧ c.previousStart = none

theorem inputRanges_iff {c : InputContext} : inputRanges c = true ↔ InputInRange c := by
  have habsent : (c.monitor != .absent || (c.timer.isNone && c.openFrame.isNone && c.frameNumber = 0 && c.previousStart.isNone)) = true ↔
      (c.monitor = .absent → c.timer = none ∧ c.openFrame = none ∧ c.frameNumber = 0 ∧ c.previousStart = none) := by
    by_cases h : c.monitor = .absent <;> simp [h, and_assoc]
  unfold inputRanges
  simp only [Bool.and_eq_true, decide_eq_true_eq, habsent]
  constructor
  · rintro ⟨⟨⟨⟨⟨⟨h1, h2⟩, h3⟩, h4⟩, h5⟩, h6⟩, h7⟩
    exact ⟨h1, h2, h3, h4, h5, h6, h7⟩
  · rintro ⟨h1, h2, h3, h4, h5, h6, h7⟩
    exact ⟨⟨⟨⟨⟨⟨h1, h2⟩, h3⟩, h4⟩, h5⟩, h6⟩, h7⟩

theorem inputLaw_iff {s : State} : InputLaw s ↔ ∀ i, InputInRange (s.input i) :=
  ⟨fun h i => inputRanges_iff.1 (h i (mem_allInputs i)), fun h i _ => inputRanges_iff.2 (h i)⟩

/-- A configuration within range locks and loses after at least one frame (R67). -/
theorem inRange_counts {c : SourceConfig} (h : c.inRange.all id = true) : 1 ≤ c.lockCount ∧ 1 ≤ c.lossCount := by
  simp only [SourceConfig.inRange, List.all_cons, id_eq, Bool.and_eq_true, decide_eq_true_eq, List.all_nil] at h
  omega

theorem firstFalse_eq_none {l : List Bool} : firstFalse l = none ↔ l.all id = true := by
  induction l with
  | nil => simp [firstFalse]
  | cons b l ih => cases b <;> simp [firstFalse, ih]

theorem satSucc_le (n k : Nat) : satSucc n k ≤ n := Nat.min_le_left ..

/-! ### The moves of an input -/

/-- Other slots change nothing of the ranges. -/
theorem InputInRange.of_slots {c : InputContext} (h : InputInRange c) (z : PerSlot Slot) : InputInRange { c with slots := z } :=
  ⟨h.config, h.goodRun, h.badRun, h.frameNumber, h.badFrames, h.dropped, h.absent⟩

/-- A judgement keeps the ranges, and a monitor that is not ABSENT goes on not being it (R63). -/
theorem InputInRange.judged {c : InputContext} (h : InputInRange c) (good : Bool) :
    InputInRange (c.judged good) ∧ (c.monitor ≠ .absent → (c.judged good).monitor ≠ .absent) := by
  obtain ⟨hlock, hloss⟩ := inRange_counts h.config
  obtain ⟨hconfig, hgood, hbad, hnumber, hframes, hdropped, habsent⟩ := h
  have hcount := satSucc_le 65535 c.badFrames
  unfold InputContext.judged
  cases good with
  | true =>
    unfold InputContext.goodFrame
    cases hm : c.monitor with
    | absent => exact ⟨⟨hconfig, hgood, hbad, hnumber, hframes, hdropped, habsent⟩, fun h => absurd rfl h⟩
    | acquiring =>
      by_cases hc : c.config.lockCount ≤ c.goodRun + 1
      · simp only [hc, if_true]
        exact ⟨⟨hconfig, hlock, hloss, hnumber, hframes, hdropped, by simp⟩, by simp⟩
      · simp only [hc, if_true, if_false]
        exact ⟨⟨hconfig, by dsimp only; omega, hbad, hnumber, hframes, hdropped, by simp⟩, by simp⟩
    | locked => exact ⟨⟨hconfig, hgood, hloss, hnumber, hframes, hdropped, by simp⟩, by simp⟩
    | lost =>
      by_cases hc : c.config.lockCount ≤ 1
      · simp only [hc, if_true]
        exact ⟨⟨hconfig, hlock, hloss, hnumber, hframes, hdropped, by simp⟩, by simp⟩
      · simp only [hc, if_true, if_false]
        exact ⟨⟨hconfig, by dsimp only; omega, hbad, hnumber, hframes, hdropped, by simp⟩, by simp⟩
  | false =>
    unfold InputContext.badFrame
    cases hm : c.monitor with
    | absent => exact ⟨⟨hconfig, hgood, hbad, hnumber, hcount, hdropped, fun _ => habsent hm⟩, fun h => absurd rfl h⟩
    | acquiring => exact ⟨⟨hconfig, hlock, hbad, hnumber, hcount, hdropped, by simp⟩, by simp⟩
    | locked =>
      by_cases hc : c.config.lossCount ≤ c.badRun + 1
      · simp only [hc, if_true]
        exact ⟨⟨hconfig, hlock, hloss, hnumber, hcount, hdropped, by simp⟩, by simp⟩
      · simp only [hc, if_false, Bool.false_eq_true]
        exact ⟨⟨hconfig, hgood, by dsimp only; omega, hnumber, hcount, hdropped, by simp⟩, by simp⟩
    | lost => exact ⟨⟨hconfig, hgood, hbad, hnumber, hcount, hdropped, by simp⟩, by simp⟩

theorem InputContext.ended_eq (c : InputContext) (f : OpenFrame) (good : Bool) :
    c.ended f good = { c.judged good with openFrame := none, slots := (c.ended f good).slots } := by
  unfold InputContext.ended
  cases f.slot <;> rfl

theorem InputInRange.ended {c : InputContext} (h : InputInRange c) {f : OpenFrame} (good : Bool) :
    InputInRange (c.ended f good) ∧ (c.monitor ≠ .absent → (c.ended f good).monitor ≠ .absent) := by
  obtain ⟨h', hm⟩ := h.judged good
  rw [InputContext.ended_eq]
  refine ⟨⟨h'.config, h'.goodRun, h'.badRun, h'.frameNumber, h'.badFrames, h'.dropped, fun ha => ?_⟩, hm⟩
  obtain ⟨h1, -, h3, h4⟩ := h'.absent ha
  exact ⟨h1, rfl, h3, h4⟩

theorem InputInRange.not_absent {c : InputContext} (h : InputInRange c) (ho : c.openFrame ≠ none ∨ c.timer ≠ none) : c.monitor ≠ .absent := by
  intro ha
  obtain ⟨h1, h2, -⟩ := h.absent ha
  exact ho.elim (· h2) (· h1)

theorem nextFrameNumber_le (n : Nat) (h : n ≤ 65535) : nextFrameNumber n ≤ 65535 := by
  unfold nextFrameNumber
  split <;> omega

/-- The start of a frame leaves the ranges, and no monitor ABSENT (R54). -/
theorem InputInRange.frameStarted {c : InputContext} (h : InputInRange c) (now : Time) (tag : Half) : InputInRange (c.frameStarted now tag) := by
  have hearly : InputInRange c.endedEarly := by
    unfold InputContext.endedEarly
    split
    · exact (h.ended false).1
    · exact h
  generalize hc : c.endedEarly = e at hearly
  have hbegin : ∀ slot, (e.beginFrame now tag slot) = { e with
      frameNumber := nextFrameNumber e.frameNumber, measuredPeriod := (e.beginFrame now tag slot).measuredPeriod
      timestamp := (e.beginFrame now tag slot).timestamp, previousStart := (e.beginFrame now tag slot).previousStart
      senderTag := (e.beginFrame now tag slot).senderTag, openFrame := (e.beginFrame now tag slot).openFrame
      timer := (e.beginFrame now tag slot).timer, dropped := (e.beginFrame now tag slot).dropped
      slots := (e.beginFrame now tag slot).slots } := fun slot => by cases slot <;> rfl
  have hdropped : ∀ slot, (e.beginFrame now tag slot).dropped ≤ 65535 := by
    intro slot
    cases slot with
    | none => exact satSucc_le _ _
    | some k => exact hearly.dropped
  obtain ⟨hlock, hloss⟩ := inRange_counts hearly.config
  have hnumber := nextFrameNumber_le _ hearly.frameNumber
  unfold InputContext.frameStarted InputContext.firstFrame
  rw [hc]
  split
  · rw [hbegin]
    exact ⟨hearly.config, hlock, hloss, hnumber, hearly.badFrames, hdropped _, by simp⟩
  · rename_i ha
    rw [hbegin] at ha ⊢
    exact ⟨hearly.config, hearly.goodRun, hearly.badRun, hnumber, hearly.badFrames, hdropped _, fun e => absurd e ha⟩

theorem InputInRange.restart {c : InputContext} (h : InputInRange c) {x : SourceConfig} (hx : x.inRange.all id = true) :
    InputInRange { ({ c with config := x } : InputContext).restart with monitor := .absent } := by
  obtain ⟨hlock, hloss⟩ := inRange_counts hx
  rw [InputContext.restart_frame]
  exact ⟨hx, hlock, hloss, Nat.zero_le _, h.badFrames, h.dropped, fun _ => ⟨rfl, rfl, rfl, rfl⟩⟩

/-- Every move of an input keeps its ranges (R51). -/
theorem InputInRange.move {s : State} {i : InputId} {c : InputContext} (h : InputMove s i c) (hs : InputInRange (s.input i)) : InputInRange c := by
  cases h with
  | same => exact hs
  | held z => exact hs.of_slots z
  | abandoned =>
    have habandon : ∀ z, InputInRange { s.input i with openFrame := none, slots := z } := fun z =>
      ⟨hs.config, hs.goodRun, hs.badRun, hs.frameNumber, hs.badFrames, hs.dropped, fun ha => by
        obtain ⟨h1, -, h3, h4⟩ := hs.absent ha
        exact ⟨h1, rfl, h3, h4⟩⟩
    unfold InputContext.abandon
    split
    · exact hs
    · split
      · exact habandon _
      · exact habandon _
  | restarted => exact hs.restart (x := (s.input i).config) hs.config
  | frameStarted tag => exact hs.frameStarted _ tag
  | lineTaken n field =>
    cases hf : (s.input i).openFrame with
    | none => rw [InputContext.takeLine_closed hf]; exact hs
    | some f =>
      have hpresent := hs.not_absent (.inl (by simp [hf]))
      have hopen : ∀ g z, InputInRange { s.input i with openFrame := some g, slots := z } := fun g z =>
        ⟨hs.config, hs.goodRun, hs.badRun, hs.frameNumber, hs.badFrames, hs.dropped, fun ha => absurd ha hpresent⟩
      cases hpx : acceptedLine (s.input i).config f n field with
      | none => rw [InputContext.takeLine_discarded hf hpx]; exact hopen _ _
      | some px => rw [InputContext.takeLine_accepted hf hpx]; exact hopen _ _
  | frameEnded hf => exact (hs.ended _).1
  | expired hdue =>
    have hpresent := hs.not_absent (.inr (by simp [hdue]))
    have hexpired : InputInRange (match (s.input i).openFrame with | some f => (s.input i).ended f false | none => (s.input i).badFrame) ∧
        (match (s.input i).openFrame with | some f => (s.input i).ended f false | none => (s.input i).badFrame).monitor ≠ .absent := by
      split
      · exact ⟨(hs.ended false).1, (hs.ended false).2 hpresent⟩
      · exact ⟨(hs.judged false).1, (hs.judged false).2 hpresent⟩
    obtain ⟨h, hm⟩ := hexpired
    exact ⟨h.config, h.goodRun, h.badRun, h.frameNumber, h.badFrames, h.dropped, fun ha => absurd ha hm⟩

/-- Every row keeps the ranges of every input (R51). -/
theorem inputLaw_effect {s t : State} {c : Instr} (h : Effect s c t) (hs : InputLaw s) : InputLaw t := by
  have hs := inputLaw_iff.1 hs
  refine inputLaw_iff.2 fun i => ?_
  obtain ⟨-, hreset⟩ | ⟨j, x, hrange, -, -, rfl⟩ | hmoves := h.input_cases
  · rw [hreset]
    exact inputRanges_iff.1 (by decide)
  · rw [State.configured_input]
    split
    · exact (hs j).restart (firstFalse_eq_none.1 hrange)
    · exact hs i
  · exact .move (hmoves i) (hs i)

end Sys2Proof.Machine
end


section
/-! SUPPORT. What each row does to the context of a domain (R89 to R103): the report of a monitor that leaves LOCKED, the report of a FRAME_START,
a SET_DOMAIN and the domain's own work at its frame start. -/

namespace Sys2Proof.Machine
open Sys2Proof.Safety

/-! ### Reports -/

/-- A domain LOCKED to an input becomes HOLDOVER when that input's monitor leaves LOCKED (R95). -/
def DomainContext.monitored (c : DomainContext) (i : InputId) (before after : MonitorState) : DomainContext :=
  if before = .locked ∧ after ≠ .locked ∧ c.settings.locksTo i = true ∧ c.mode = .locked then { c with mode := .holdover } else c

theorem DomainContext.monitored_same (c : DomainContext) (i : InputId) (m : MonitorState) : c.monitored i m m = c := by
  unfold DomainContext.monitored
  rw [if_neg]
  rintro ⟨h, h', -⟩
  exact h' h

theorem DomainContext.monitored_ne {c : DomainContext} {i : InputId} {m m' : MonitorState} (h : m ≠ .locked) : c.monitored i m m' = c :=
  if_neg fun h' => h h'.1

theorem State.setMonitor_domain_eq (s : State) (i : InputId) (m : MonitorState) (d : Domain) :
    (s.setMonitor i m).domain d = (s.domain d).monitored i (s.input i).monitor m := s.setMonitor_domain i m d

/-- A judgement reaches a domain by the change of monitor state alone (R63, R95). -/
theorem State.judge_domain (s : State) (i : InputId) (good : Bool) (d : Domain) :
    (s.judge i good).domain d = (s.domain d).monitored i (s.input i).monitor ((s.input i).judged good).monitor := by
  unfold State.judge InputContext.judged
  cases hm : (s.input i).monitor with
  | absent => cases good <;> simp [State.goodFrame, State.badFrame, InputContext.goodFrame, InputContext.badFrame, hm, DomainContext.monitored]
  | acquiring =>
    cases good with
    | true =>
      by_cases hc : (s.input i).config.lockCount ≤ (s.input i).goodRun + 1 <;>
        simp [State.goodFrame, InputContext.goodFrame, hm, hc, DomainContext.monitored, State.setMonitor_domain]
    | false => simp [State.badFrame, InputContext.badFrame, hm, DomainContext.monitored]
  | locked =>
    cases good with
    | true => simp [State.goodFrame, InputContext.goodFrame, hm, DomainContext.monitored]
    | false =>
      by_cases hc : (s.input i).config.lossCount ≤ (s.input i).badRun + 1 <;>
        simp [State.badFrame, InputContext.badFrame, hm, hc, DomainContext.monitored, State.setMonitor_domain]
  | lost =>
    cases good with
    | true =>
      by_cases hc : (s.input i).config.lockCount ≤ 1 <;>
        simp [State.goodFrame, InputContext.goodFrame, hm, hc, DomainContext.monitored, State.setMonitor_domain]
    | false => simp [State.badFrame, InputContext.badFrame, hm, DomainContext.monitored]

theorem InputContext.ended_monitor (c : InputContext) (f : OpenFrame) (good : Bool) : (c.ended f good).monitor = (c.judged good).monitor := by
  rw [InputContext.ended_eq]

theorem State.endFrame_domain (s : State) (i : InputId) (f : OpenFrame) (good : Bool) (d : Domain) :
    (s.endFrame i f good).domain d = (s.domain d).monitored i (s.input i).monitor ((s.input i).ended f good).monitor := by
  rw [InputContext.ended_monitor, ← State.judge_domain]
  exact State.modInput_domain ..

theorem State.endEarly_domain (s : State) (i : InputId) (d : Domain) :
    (s.endEarly i).domain d = (s.domain d).monitored i (s.input i).monitor (s.input i).endedEarly.monitor := by
  cases hf : (s.input i).openFrame with
  | none => simp [State.endEarly, InputContext.endedEarly, hf, DomainContext.monitored_same]
  | some f => simp only [State.endEarly, InputContext.endedEarly, hf]; exact s.endFrame_domain i f false d

theorem State.expire_domain (s : State) (i : InputId) (d : Domain) :
    (s.expire i).domain d = (s.domain d).monitored i (s.input i).monitor ((s.input i).expired s.timeBase).monitor := by
  cases hf : (s.input i).openFrame with
  | none =>
    have hjudge : s.badFrame i = s.judge i false := rfl
    have hbad : (s.input i).badFrame = (s.input i).judged false := rfl
    simp only [State.expire, InputContext.expired, hf, State.modInput_domain, hjudge, hbad]
    exact s.judge_domain i false d
  | some f =>
    simp only [State.expire, InputContext.expired, hf, State.modInput_domain]
    exact s.endFrame_domain i f false d

theorem InputContext.restart_monitor (c : InputContext) : c.restart.monitor = c.monitor := by
  rw [InputContext.restart_frame]

theorem State.restartSource_domain (s : State) (i : InputId) (d : Domain) :
    (s.restartSource i).domain d = (s.domain d).monitored i (s.input i).monitor .absent := by
  unfold State.restartSource
  rw [State.setMonitor_domain_eq, State.modInput_domain, State.modInput_input, if_pos rfl, InputContext.restart_monitor]

theorem State.configured_domain (s : State) (i : InputId) (x : SourceConfig) (d : Domain) :
    (s.configured i x).domain d = (s.domain d).monitored i (s.input i).monitor .absent := by
  unfold State.configured
  rw [State.respond_domain, State.restartSource_domain]
  simp

/-- A FRAME_START reported to a domain that its input, LOCKED, locks (R93, R96, R97). -/
def DomainContext.reported (c : DomainContext) (i : InputId) (x : InputContext) (now : Time) : DomainContext :=
  match c.settings.mode with
  | .free => c
  | .lock j delay =>
    if j = i ∧ x.monitor = .locked then
      { c with
        mode := .locked, nextStart := later now delay
        heldPeriod := match x.measuredPeriod with | some m => some (clampPeriod m) | none => c.heldPeriod }
    else c

theorem State.reportStart_domain (s : State) (i : InputId) (d e : Domain) :
    (s.reportStart i d).domain e = if e = d then (s.domain d).reported i (s.input i) s.timeBase else s.domain e := by
  unfold State.reportStart DomainContext.reported
  cases hm : (s.domain d).settings.mode with
  | free => by_cases he : e = d <;> simp [he]
  | lock j delay =>
    by_cases hl : j = i ∧ (s.input i).monitor = .locked
    · simp only [hl, and_self, if_true]
      split <;> by_cases he : e = d <;> simp [he] <;> rfl
    · simp only [hl, if_false]
      split
      · rename_i he; rw [he]
      · rfl

/-- Every domain is told of a FRAME_START once (R93). -/
theorem State.reportStarts_domain (s : State) (i : InputId) (d : Domain) :
    (allDomains.foldl (State.reportStart i) s).domain d = (s.domain d).reported i (s.input i) s.timeBase := by
  have hone : ∀ (u : State) (e : Domain), (State.reportStart i u e).input i = u.input i ∧ (State.reportStart i u e).timeBase = u.timeBase := by
    intro u e
    have h := State.reportStarts_frame u i [e]
    simp only [List.foldl_cons, List.foldl_nil] at h
    rw [h]
    exact ⟨rfl, rfl⟩
  simp only [allDomains, List.foldl_cons, List.foldl_nil]
  cases d <;> simp [State.reportStart_domain, hone]

/-- FRAME_START in a domain's context (R54, R93, R95). -/
theorem State.frameStart_domain (s : State) (i : InputId) (tag : Half) (d : Domain) :
    (allDomains.foldl (State.reportStart i) (((s.endEarly i).openInput i tag).firstFrame i)).domain d =
      ((s.domain d).monitored i (s.input i).monitor (s.input i).endedEarly.monitor).reported i ((s.input i).frameStarted s.timeBase tag)
        s.timeBase := by
  have hinput : (((s.endEarly i).openInput i tag).firstFrame i).input i = (s.input i).frameStarted s.timeBase tag := by
    rw [← State.reportStarts_input _ i i allDomains, State.frameStart_input_eq, if_pos rfl]
  have hdomain : (((s.endEarly i).openInput i tag).firstFrame i).domain d = (s.endEarly i).domain d := by
    have hopen : ((s.endEarly i).openInput i tag).domain d = (s.endEarly i).domain d := by simp
    unfold State.firstFrame
    split
    · rename_i ha
      rw [State.setMonitor_domain_eq, DomainContext.monitored_ne, State.setRuns_domain, hopen]
      simp only [State.setRuns_input, if_true, ha]
      decide
    · exact hopen
  rw [State.reportStarts_domain, hinput, hdomain, State.endEarly_domain]
  congr 1
  simp

/-! ### The domain's own work -/

/-- Steps 1 to 4 of R90 in the domain's context: settings, frame number, sync and schedule. -/
def State.worked (s : State) (d : Domain) : DomainContext :=
  let taken := (s.domain d).takeSettings fun i => (s.input i).monitor = .locked
  let period := s.runningPeriod taken
  { taken.judgeSync (s.link (domainScreens d).1).summary (s.link (domainScreens d).2).summary with
    frameNumber := nextFrameNumber taken.frameNumber, lastStart := s.timeBase, runningPeriod := period
    nextStart := later s.timeBase period }

theorem State.takeSettings_domain (s : State) (d e : Domain) :
    (s.takeSettings d).domain e = if e = d then (s.domain d).takeSettings fun i => (s.input i).monitor = .locked else s.domain e := by
  unfold State.takeSettings
  dsimp only
  split <;> simp

theorem State.judgeSync_domain (s : State) (d e : Domain) :
    (s.judgeSync d).domain e =
      if e = d then (s.domain d).judgeSync (s.link (domainScreens d).1).summary (s.link (domainScreens d).2).summary else s.domain e := by
  unfold State.judgeSync
  dsimp only
  split <;> simp

theorem State.domainWork_domain (s : State) (d e : Domain) : (s.domainWork d).domain e = if e = d then s.worked d else s.domain e := by
  have hjudge : ∀ (p q : Summary) (c : DomainContext) n,
      DomainContext.judgeSync p q { c with frameNumber := n } = { DomainContext.judgeSync p q c with frameNumber := n } := fun _ _ _ _ => rfl
  have hperiod : ∀ (u : State), (∀ i, u.input i = s.input i) → ∀ (c : DomainContext) p q n,
      u.runningPeriod { DomainContext.judgeSync p q c with frameNumber := n } = s.runningPeriod c := by
    intro u hu c p q n
    simp only [State.runningPeriod, DomainContext.judgeSync, hu]
  have hinputs : ∀ i, (((s.takeSettings d).advanceFrame d).judgeSync d).input i = s.input i := fun i => by simp [State.advanceFrame]
  unfold State.domainWork State.schedule
  by_cases he : e = d
  · subst he
    simp only [State.modDomain_domain, if_true, State.judgeSync_domain, State.advanceFrame, State.takeSettings_domain]
    have hsum : ∀ sc, (((s.takeSettings e).advanceFrame e).link sc).summary = (s.link sc).summary := fun sc => by simp [State.advanceFrame]
    simp only [State.advanceFrame] at hsum hinputs ⊢
    rw [hsum, hsum, hjudge, hperiod _ hinputs]
    simp [State.worked]
  · simp [he, State.judgeSync_domain, State.advanceFrame, State.takeSettings_domain]

theorem State.domainStart_domain (s : State) (d e : Domain) : (s.domainStart d).domain e = if e = d then s.worked d else s.domain e := by
  rw [← State.domainWork_domain]
  simp [State.domainStart, State.handFrameStart]

/-! ### The moves of the domains -/

/-- What any row does to the domains, with what it does to the monitors they hear of. -/
inductive DomainMove (s t : State) : Prop
  | same (hmonitor : ∀ i, (t.input i).monitor = (s.input i).monitor) (hdomain : ∀ d, t.domain d = s.domain d)
  | monitored (i : InputId) (hmonitor : ∀ j, j ≠ i → (t.input j).monitor = (s.input j).monitor)
      (hdomain : ∀ d, t.domain d = (s.domain d).monitored i (s.input i).monitor (t.input i).monitor)
  | started (i : InputId) (tag : Half) (hmonitor : ∀ j, j ≠ i → (t.input j).monitor = (s.input j).monitor)
      (hinput : t.input i = (s.input i).frameStarted s.timeBase tag)
      (hdomain : ∀ d, t.domain d =
        ((s.domain d).monitored i (s.input i).monitor (s.input i).endedEarly.monitor).reported i (t.input i) s.timeBase)
  | requested (d : Domain) (m : DomainMode) (p : Nat) (hmode : ∃ b lock, s.requestedMode b lock = some m)
      (hmonitor : ∀ i, (t.input i).monitor = (s.input i).monitor)
      (hdomain : ∀ e, t.domain e = if e = d then { s.domain d with pendingSettings := some ⟨m, p⟩ } else s.domain e)
  | worked (d : Domain) (hmonitor : ∀ i, (t.input i).monitor = (s.input i).monitor)
      (hdomain : ∀ e, t.domain e = if e = d then s.worked d else s.domain e)
  | reset (hdomain : ∀ d, t.domain d = .reset)

theorem reset_domain (d : Domain) : State.reset.domain d = .reset := by cases d <;> rfl

theorem State.assertReset_domain (s : State) (d : Domain) : s.assertReset.domain d = s.domain d := by
  unfold State.assertReset
  rw [State.disarm_frame]
  cases d <;> rfl

theorem InputContext.abandon_monitor (c : InputContext) : c.abandon.monitor = c.monitor := by
  unfold InputContext.abandon
  split
  · rfl
  · split <;> rfl

theorem InputContext.takeLine_monitor (c : InputContext) (n : Nat) (field : PixelField) : (c.takeLine n field).monitor = c.monitor := by
  cases hf : c.openFrame with
  | none => rw [InputContext.takeLine_closed hf]
  | some f =>
    cases hpx : acceptedLine c.config f n field with
    | none => rw [InputContext.takeLine_discarded hf hpx]
    | some px => rw [InputContext.takeLine_accepted hf hpx]

theorem Effect.domainMove {s t : State} {c : Instr} (h : Effect s c t) : DomainMove s t := by
  have same : ∀ {u : State}, (∀ i, u.input i = s.input i) → (∀ d, u.domain d = s.domain d) → DomainMove s u :=
    fun hi hd => .same (fun i => by rw [hi]) hd
  have changed : ∀ {u : State} {i : InputId} {x : InputContext}, (∀ j, u.input j = if j = i then x else s.input j) →
      (∀ d, u.domain d = (s.domain d).monitored i (s.input i).monitor x.monitor) → DomainMove s u := by
    intro u i x hu hd
    exact .monitored i (fun j hj => by rw [hu, if_neg hj]) fun d => by rw [hd, hu, if_pos rfl]
  cases h with
  | resetReleased => exact .reset reset_domain
  | resetAsserted =>
    exact .same (fun i => by rw [s.assertReset_input]; exact InputContext.abandon_monitor _) s.assertReset_domain
  | @domainStarted _ d =>
    exact .worked d (fun i => by rw [s.domainStart_sameInputs d i]) (s.domainStart_domain d)
  | @domainSet b m p lock d mode ht => exact .requested d mode p.toNat ⟨m, lock, ht⟩ (fun i => by simp) (fun e => by simp)
  | @sourceConfigured _ _ _ _ _ _ _ _ i x => exact changed (State.configured_input s i · x) (s.configured_domain i x)
  | @sourceRestarted _ i => exact changed (State.restartSource_input s i ·) (s.restartSource_domain i)
  | @frameStarted i tag =>
    have hinput := fun j => s.frameStart_input_eq i j tag
    refine .started i tag (fun j hj => by rw [hinput, if_neg hj]) ((hinput i).trans (if_pos rfl)) fun d => ?_
    rw [hinput, if_pos rfl]
    exact s.frameStart_domain i tag d
  | @lineTaken i n field =>
    refine .same (fun j => ?_) fun d => by simp
    rw [State.modInput_input]
    split
    · rename_i hj
      rw [InputContext.takeLine_monitor, hj]
    · rfl
  | @frameEnded i f hf => exact changed (s.endFrame_input_eq i · f _) (s.endFrame_domain i f _)
  | @expired i => exact changed (s.expire_input_eq i ·) (s.expire_domain i)
  | @freed _ _ _ h => exact .same (fun i => by rw [State.respond_input, s.freeRecord_sameInputs h i]) fun d => by simp
  | unchanged => exact same (fun i => rfl) fun d => rfl
  | answered => exact same (fun i => rfl) fun d => rfl
  | opened | amended | retired | armed | freezeRequested | screenConfigured | toneStored | linkEnabled | linkDisabled | linkReset
  | resetRenewed | lineHanded | returnTaken => exact same (fun i => by simp) fun d => by simp
  | noticeTaken | masked | fetched => exact same (fun i => rfl) fun d => rfl

end Sys2Proof.Machine
end


section
/-! SUPPORT. The ranges of a link's context, and the modes, delays and sync states of the domains, through every row (R67, R89, R99, R103, R144). -/

namespace Sys2Proof.Machine
open Sys2Proof.Safety

/-! ### Links -/

/-- The parts of a link's context within their ranges (R144, R152, R158). -/
structure LinkInRange (l : LinkContext) : Prop where
  trainedRun : l.trainedRun ≤ 2
  windowCount : l.windowCount ≤ 32
  missingRun : l.missingRun ≤ 3
  errorRun : l.errorRun ≤ 2
  counted : ∀ n, l.resetCount = some n → l.state = .resetting ∧ 1 ≤ n ∧ n ≤ 2
  uncounted : l.resetCount = none → l.state ≠ .resetting
  transmission : l.state ≠ .up → l.transmission = none
  window : l.state ≠ .halted → l.state ≠ .resetting → l.windowCount ≤ 31
  missingTotal : l.missingTotal ≤ 65535
  recoveries : l.recoveries ≤ 65535
  errorTotal : l.errorTotal ≤ 4294967295
  badChoices : l.badChoices ≤ 65535

theorem linkRanges_iff {l : LinkContext} : linkRanges l = true ↔ LinkInRange l := by
  have hreset : (match l.resetCount with | some n => l.state = .resetting && 1 ≤ n && n ≤ 2 | none => l.state != .resetting) = true ↔
      (∀ n, l.resetCount = some n → l.state = .resetting ∧ 1 ≤ n ∧ n ≤ 2) ∧ (l.resetCount = none → l.state ≠ .resetting) := by
    cases l.resetCount <;> simp [and_assoc]
  have hsending : (l.transmission.isNone || decide (l.state = .up)) = true ↔ (l.state ≠ .up → l.transmission = none) := by
    by_cases h : l.state = .up <;> simp [h]
  have hwindow : (l.windowCount ≤ 31 || l.state = .halted || l.state = .resetting) = true ↔
      (l.state ≠ .halted → l.state ≠ .resetting → l.windowCount ≤ 31) := by
    simp only [Bool.or_eq_true, decide_eq_true_eq]
    tauto
  unfold linkRanges
  simp only [Bool.and_eq_true, hsending, hwindow]
  simp only [decide_eq_true_eq]
  constructor
  · rintro ⟨⟨⟨⟨⟨⟨⟨⟨⟨⟨h1, h2⟩, h3⟩, h4⟩, h5⟩, h6⟩, h7⟩, h8⟩, h9⟩, h10⟩, h11⟩
    obtain ⟨h5, h5'⟩ := hreset.1 h5
    exact ⟨h1, h2, h3, h4, h5, h5', h6, h7, h8, h9, h10, h11⟩
  · rintro ⟨h1, h2, h3, h4, h5, h5', h6, h7, h8, h9, h10, h11⟩
    exact ⟨⟨⟨⟨⟨⟨⟨⟨⟨⟨h1, h2⟩, h3⟩, h4⟩, hreset.2 ⟨h5, h5'⟩⟩, h6⟩, h7⟩, h8⟩, h9⟩, h10⟩, h11⟩

theorem linkLaw_iff {s : State} : LinkLaw s ↔ ∀ sc, LinkInRange (s.link sc) :=
  ⟨fun h sc => linkRanges_iff.1 (h sc (mem_allScreens sc)), fun h sc _ => linkRanges_iff.2 (h sc)⟩

theorem LinkInRange.toUp {l : LinkContext} (h : LinkInRange l) (hcount : l.resetCount = none) : LinkInRange l.toUp := by
  obtain ⟨-, -, -, -, -, -, -, -, h9, h10, h11, h12⟩ := h
  constructor <;> simp [LinkContext.toUp, LinkContext.clearRuns, *]

theorem LinkInRange.toHalted {l : LinkContext} (h : LinkInRange l) (hcount : l.resetCount = none) (hsending : l.transmission = none) :
    LinkInRange l.toHalted := by
  obtain ⟨h1, h2, h3, h4, -, -, -, -, h9, h10, h11, h12⟩ := h
  constructor <;> simp [LinkContext.toHalted, *]

theorem LinkInRange.toTraining {l : LinkContext} (h : LinkInRange l) (hsending : l.transmission = none) : LinkInRange l.toTraining := by
  obtain ⟨-, -, -, -, -, -, -, -, h9, h10, h11, h12⟩ := h
  constructor <;> simp [LinkContext.toTraining, LinkContext.clearRuns, *]

theorem LinkInRange.toRecovering {l : LinkContext} (h : LinkInRange l) (hcount : l.resetCount = none) : LinkInRange l.toRecovering := by
  obtain ⟨-, -, -, -, -, -, -, -, h9, -, h11, h12⟩ := h
  constructor <;> simp [LinkContext.toRecovering, LinkContext.clearRuns, satSucc_le, *]

theorem LinkInRange.toResetting {l : LinkContext} (h : LinkInRange l) : LinkInRange l.toResetting := by
  obtain ⟨h1, h2, h3, h4, -, -, -, -, h9, h10, h11, h12⟩ := h
  constructor <;> simp [LinkContext.toResetting, *]

theorem LinkInRange.toDown {l : LinkContext} (h : LinkInRange l) : LinkInRange l.toDown := by
  obtain ⟨-, -, -, -, -, -, -, -, h9, h10, h11, h12⟩ := h
  constructor <;> simp [LinkContext.toDown, LinkContext.clearRuns, *]

/-- A link that is not RESETTING has no reset count (R144). -/
theorem LinkInRange.resetCount_eq_none {l : LinkContext} (h : LinkInRange l) (hstate : l.state ≠ .resetting) : l.resetCount = none := by
  cases hc : l.resetCount with
  | none => rfl
  | some n => exact absurd (h.counted n hc).1 hstate

/-- What is sent, the interval record and the last return are outside the ranges. -/
theorem LinkInRange.of_eq {l m : LinkContext} (h : LinkInRange l) (hsending : m.state ≠ .up → m.transmission = none)
    (hrest : m.state = l.state ∧ m.trainedRun = l.trainedRun ∧ m.windowCount = l.windowCount ∧ m.missingRun = l.missingRun ∧
      m.errorRun = l.errorRun ∧ m.resetCount = l.resetCount ∧ m.missingTotal = l.missingTotal ∧ m.recoveries = l.recoveries)
    (herrors : m.errorTotal ≤ 4294967295) (hbad : m.badChoices ≤ 65535) : LinkInRange m := by
  obtain ⟨h1, h2, h3, h4, h5, h6, h7, h8, h9, h10, h11, h12⟩ := h
  obtain ⟨e1, e2, e3, e4, e5, e6, e7, e8⟩ := hrest
  exact ⟨by rwa [e2], by rwa [e3], by rwa [e4], by rwa [e5], by rwa [e6, e1], by rwa [e6, e1], hsending, by rwa [e1, e3], by rwa [e7],
    by rwa [e8], herrors, hbad⟩

theorem LinkInRange.judgeTraining {l : LinkContext} (h : LinkInRange l) (hcount : l.resetCount = none) (hsending : l.transmission = none)
    (hstate : l.state = .training ∨ l.state = .recovering) : LinkInRange l.judgeTraining := by
  have hwindow : l.windowCount ≤ 31 := h.window (by obtain h | h := hstate <;> simp [h]) (by obtain h | h := hstate <;> simp [h])
  unfold LinkContext.judgeTraining
  dsimp only
  generalize (if l.interval.trainedSeen = true then l.trainedRun + 1 else 0) = run
  split
  · exact h.toUp hcount
  · have hrun : run ≤ 2 := by omega
    have hnext : l.windowCount + 1 ≤ 32 := by omega
    obtain ⟨-, -, h3, h4, h5, h6, h7, -, h9, h10, h11, h12⟩ := h
    split
    · exact ⟨hrun, hnext, h3, h4, by simp [LinkContext.toHalted, hcount], by simp [LinkContext.toHalted],
        fun _ => hsending, fun hne => absurd rfl hne, h9, h10, h11, h12⟩
    · have hopen : l.windowCount + 1 ≤ 31 := by omega
      exact ⟨hrun, hnext, h3, h4, h5, h6, h7, fun _ _ => hopen, h9, h10, h11, h12⟩

theorem LinkInRange.judgeUp {l : LinkContext} (h : LinkInRange l) (hcount : l.resetCount = none) (hup : l.state = .up) :
    LinkInRange l.judgeUp := by
  unfold LinkContext.judgeUp
  dsimp only
  generalize (if l.interval.returned = true then 0 else l.missingRun + 1) = missing
  generalize (if l.config.threshold = 0 then l.errorRun else if l.interval.overThreshold = true then l.errorRun + 1 else 0) = errors
  obtain ⟨h1, h2, -, -, h5, h6, h7, h8, h9, h10, h11, h12⟩ := h
  have htotal : (if l.interval.returned = true then l.missingTotal else satSucc 65535 l.missingTotal) ≤ 65535 := by
    split
    · exact h9
    · exact satSucc_le _ _
  split
  · constructor <;> simp [LinkContext.toRecovering, LinkContext.clearRuns, satSucc_le, *]
  · have hmissing : missing ≤ 3 := by omega
    have herrors : errors ≤ 2 := by omega
    exact ⟨h1, h2, hmissing, herrors, h5, h6, h7, h8, htotal, h10, h11, h12⟩

theorem LinkInRange.judgeReset {l : LinkContext} (h : LinkInRange l) (hsending : l.transmission = none) : LinkInRange l.judgeReset := by
  unfold LinkContext.judgeReset
  cases hcount : l.resetCount with
  | none => exact h
  | some n =>
    obtain ⟨hstate, -, hn⟩ := h.counted n hcount
    dsimp only
    split
    · obtain ⟨h1, h2, h3, h4, -, -, h7, h8, h9, h10, h11, h12⟩ := h
      constructor <;> simp [*]
      omega
    · exact h.toTraining hsending

theorem LinkInRange.judgeInterval {l : LinkContext} (h : LinkInRange l) (hsending : l.transmission = none) : LinkInRange l.judgeInterval := by
  unfold LinkContext.judgeInterval
  cases hstate : l.state with
  | training => exact h.judgeTraining (h.resetCount_eq_none (by simp [hstate])) hsending (.inl hstate)
  | recovering => exact h.judgeTraining (h.resetCount_eq_none (by simp [hstate])) hsending (.inr hstate)
  | up => exact h.judgeUp (h.resetCount_eq_none (by simp [hstate])) hstate
  | resetting => exact h.judgeReset hsending
  | down | halted => exact h

theorem LinkInRange.frameStart {l : LinkContext} (h : LinkInRange l) (n : Nat) : LinkInRange (l.frameStart n) := by
  have hclosed : LinkInRange l.closeFrame := by
    rw [LinkContext.closeFrame_eq]
    exact h.of_eq (fun _ => rfl) ⟨rfl, rfl, rfl, rfl, rfl, rfl, rfl, rfl⟩ h.errorTotal h.badChoices
  have hsending : l.closeFrame.transmission = none := by rw [LinkContext.closeFrame_eq]
  have hjudged : LinkInRange l.closeFrame.judgeInterval := hclosed.judgeInterval hsending
  have hsent := l.closeFrame.judgeInterval_keeps.2.2.2 hsending
  unfold LinkContext.frameStart LinkContext.beginSending
  dsimp only
  split
  · rename_i hup
    exact hjudged.of_eq (fun hne => absurd hup hne) ⟨rfl, rfl, rfl, rfl, rfl, rfl, rfl, rfl⟩ hjudged.errorTotal hjudged.badChoices
  all_goals exact hjudged.of_eq (fun _ => hsent) ⟨rfl, rfl, rfl, rfl, rfl, rfl, rfl, rfl⟩ hjudged.errorTotal hjudged.badChoices

theorem LinkInRange.takeLine {l : LinkContext} (h : LinkInRange l) (m : Composition) (pixels : List Colour) :
    LinkInRange (l.takeLine m pixels) := by
  unfold LinkContext.takeLine
  split
  · rename_i hup _
    split <;> exact h.of_eq (fun hne => absurd hup hne) ⟨rfl, rfl, rfl, rfl, rfl, rfl, rfl, rfl⟩ h.errorTotal h.badChoices
  · exact h

theorem LinkInRange.statusReturn {l : LinkContext} (h : LinkInRange l) (rear : Bool) (r : StatusReturn) : LinkInRange (l.statusReturn rear r) := by
  have htaken : LinkInRange (l.takeReturn rear r) :=
    h.of_eq h.transmission ⟨rfl, rfl, rfl, rfl, rfl, rfl, rfl, rfl⟩ (Nat.min_le_left ..) h.badChoices
  unfold LinkContext.statusReturn LinkContext.panelFault
  split
  · cases hstate : (l.takeReturn rear r).state with
    | training | recovering =>
      exact htaken.toHalted (htaken.resetCount_eq_none (by simp [hstate])) (htaken.transmission (by simp [hstate]))
    | up => exact htaken.toRecovering (htaken.resetCount_eq_none (by simp [hstate]))
    | down | halted | resetting => exact htaken
  · exact htaken

/-- Every row keeps the ranges of every link (R144). -/
theorem linkLaw_effect {s t : State} {c : Instr} (h : Effect s c t) (hs : LinkLaw s) : LinkLaw t := by
  have hs := linkLaw_iff.1 hs
  refine linkLaw_iff.2 fun sc => ?_
  have hsc := hs sc
  obtain ⟨-, hreset⟩ | ⟨x, cfg, -, -, rfl⟩ | hmoves := h.link_cases
  · rw [hreset]
    exact linkRanges_iff.1 (by decide)
  · rw [State.screenSet_link]
    split
    · exact (hs x).of_eq (hs x).transmission ⟨rfl, rfl, rfl, rfl, rfl, rfl, rfl, rfl⟩ (hs x).errorTotal (hs x).badChoices
    · exact hsc
  · have hmove := hmoves sc
    generalize t.link sc = l at hmove
    cases hmove with
    | same => exact hsc
    | toned => exact hsc.of_eq hsc.transmission ⟨rfl, rfl, rfl, rfl, rfl, rfl, rfl, rfl⟩ hsc.errorTotal hsc.badChoices
    | enabled hstate => exact hsc.toTraining (hsc.transmission (by simp [hstate]))
    | disabled => exact hsc.toDown
    | reset => exact hsc.toResetting
    | renewed hstate =>
      obtain ⟨h1, h2, h3, h4, -, -, h7, h8, h9, h10, h11, h12⟩ := hsc
      constructor <;> simp [*]
    | frameStarted k b hb n =>
      have hb : b ≤ 65535 := by
        obtain rfl | rfl := hb
        · exact hsc.badChoices
        · exact satSucc_le _ _
      exact LinkInRange.frameStart (l := { s.link sc with pendingChoice := k, badChoices := b }) (hsc.of_eq hsc.transmission ⟨rfl, rfl, rfl, rfl, rfl, rfl, rfl, rfl⟩ hsc.errorTotal hb) n
    | lineTaken m pixels => exact hsc.takeLine m pixels
    | returned r => exact hsc.statusReturn _ r

/-! ### Delays -/

theorem DomainContext.monitored_frame (c : DomainContext) (i : InputId) (a b : MonitorState) :
    c.monitored i a b = { c with mode := (c.monitored i a b).mode } := by
  unfold DomainContext.monitored
  split <;> rfl

theorem DomainContext.reported_frame (c : DomainContext) (i : InputId) (x : InputContext) (now : Time) :
    c.reported i x now = { c with
      mode := (c.reported i x now).mode, nextStart := (c.reported i x now).nextStart, heldPeriod := (c.reported i x now).heldPeriod } := by
  unfold DomainContext.reported
  split
  · rfl
  · split <;> rfl

/-- Settings taken are those that were pending (R100). -/
theorem DomainContext.takeSettings_settings (c : DomainContext) (f : InputId → Bool) :
    (c.takeSettings f).settings = c.pendingSettings.getD c.settings ∧ (c.takeSettings f).pendingSettings = none ∧
      (c.takeSettings f).sync = c.sync ∧ (c.takeSettings f).agreeingRun = c.agreeingRun := by
  unfold DomainContext.takeSettings
  cases hp : c.pendingSettings with
  | none => exact ⟨rfl, hp, rfl, rfl⟩
  | some t => cases hm : t.mode <;> simp [hm]

/-- The lock delay of these settings below the period less the tolerance of its input, as the inputs are configured (R67, R99). -/
def DelayBelow (config : InputId → SourceConfig) (t : DomainSettings) : Prop :=
  ∀ i n, t.mode = .lock i n → n + (config i).tolerance < (config i).period

/-- The settings of a domain, in effect or pending. -/
def DomainContext.holdsSettings (c : DomainContext) (t : DomainSettings) : Prop := c.settings = t ∨ c.pendingSettings = some t

theorem delayLawful_iff {s : State} {t : DomainSettings} : delayLawful s t = true ↔ DelayBelow (fun i => (s.input i).config) t := by
  unfold DelayBelow
  cases hm : t.mode <;> simp [delayLawful, hm]

theorem delayLaw_iff {s : State} : DelayLaw s ↔ ∀ d t, (s.domain d).holdsSettings t → DelayBelow (fun i => (s.input i).config) t := by
  constructor
  · rintro h d t (rfl | ht)
    · exact delayLawful_iff.1 (h d (mem_allDomains d)).1
    · exact delayLawful_iff.1 ((h d (mem_allDomains d)).2 t ht)
  · exact fun h d _ => ⟨delayLawful_iff.2 (h d _ (.inl rfl)), fun t ht => delayLawful_iff.2 (h d t (.inr ht))⟩

/-- A mode asked for and found within its bounds has its delay below (R99). -/
theorem State.requestedMode_delay {s : State} {b : Byte} {lock : RawLock} {m : DomainMode} (h : s.requestedMode b lock = some m) (p : Nat) :
    DelayBelow (fun i => (s.input i).config) ⟨m, p⟩ := by
  rintro i n hm
  obtain rfl : m = .lock i n := hm
  obtain ⟨x, delay, -, -, -, hbelow, rfl⟩ := (s.requestedMode_eq_lock_iff b lock i n).1 h
  exact hbelow

/-- What no domain's settings hold too long a delay for (R67). -/
theorem State.lockFault_eq_none {s : State} {i : InputId} {x : SourceConfig} :
    s.lockFault i x = none ↔ ∀ d t, (s.domain d).holdsSettings t → ∀ n, t.mode = .lock i n → n + x.tolerance < x.period := by
  have hlong : ∀ t : DomainSettings, t.delayTooLong i x = false ↔ ∀ n, t.mode = .lock i n → n + x.tolerance < x.period := by
    intro t
    cases hm : t.mode with
    | free => simp [DomainSettings.delayTooLong, hm]
    | lock j n =>
      by_cases hj : j = i
      · subst hj; simp [DomainSettings.delayTooLong, hm]
      · simp [DomainSettings.delayTooLong, hm, hj]
  unfold State.lockFault
  simp only [List.find?_eq_none, Bool.or_eq_true, not_or, Bool.not_eq_true]
  constructor
  · rintro h d t (rfl | ht)
    · exact (hlong _).1 (h d (mem_allDomains d)).1
    · have hpending := (h d (mem_allDomains d)).2
      rw [ht] at hpending
      exact (hlong _).1 hpending
  · refine fun h d _ => ⟨(hlong _).2 (h d _ (.inl rfl)), ?_⟩
    cases hp : (s.domain d).pendingSettings with
    | none => rfl
    | some t => exact (hlong t).2 (h d t (.inr hp))

/-- Every row leaves a domain settings it held, or those a SET_DOMAIN was checked for, or those of the release (R99, R100). -/
theorem DomainMove.holdsSettings {s t : State} (h : DomainMove s t) {d : Domain} {x : DomainSettings} (hx : (t.domain d).holdsSettings x) :
    (s.domain d).holdsSettings x ∨ (∃ b lock, s.requestedMode b lock = some x.mode) ∨ x.mode = .free := by
  cases h with
  | same _ hdomain => exact .inl (hdomain d ▸ hx)
  | monitored i _ hdomain =>
    rw [hdomain, DomainContext.monitored_frame] at hx
    exact .inl hx
  | started i tag _ _ hdomain =>
    rw [hdomain, DomainContext.reported_frame, DomainContext.monitored_frame] at hx
    exact .inl hx
  | requested e m p hmode _ hdomain =>
    rw [hdomain] at hx
    split at hx
    · rename_i hd
      obtain hx | hx := hx
      · exact .inl (.inl (hd ▸ hx))
      · obtain rfl := Option.some.inj hx
        exact .inr (.inl hmode)
    · exact .inl hx
  | worked e _ hdomain =>
    rw [hdomain] at hx
    split at hx
    · rename_i hd
      obtain ⟨hsettings, hpending, -, -⟩ := (s.domain e).takeSettings_settings fun i => (s.input i).monitor = .locked
      obtain hx | hx := hx
      · change ((s.domain e).takeSettings _).settings = x at hx
        rw [hsettings] at hx
        subst hd
        cases hp : (s.domain d).pendingSettings with
        | none => rw [hp] at hx; exact .inl (.inl hx)
        | some y => rw [hp] at hx; exact .inl (.inr (hp.trans (congrArg some hx)))
      · change ((s.domain e).takeSettings _).pendingSettings = some x at hx
        rw [hpending] at hx
        cases hx
    · exact .inl hx
  | reset hdomain =>
    rw [hdomain] at hx
    obtain rfl | hx := hx
    · exact .inr (.inr rfl)
    · cases hx

/-- Every row keeps every lock delay below its input's period less its tolerance (R67, R99). -/
theorem delayLaw_effect {s t : State} {c : Instr} (h : Effect s c t) (hs : DelayLaw s) : DelayLaw t := by
  have hs := delayLaw_iff.1 hs
  refine delayLaw_iff.2 fun d x hx => ?_
  have hold : DelayBelow (fun i => (s.input i).config) x := by
    obtain hx | ⟨b, lock, hmode⟩ | hmode := h.domainMove.holdsSettings hx
    · exact hs d x hx
    · exact State.requestedMode_delay hmode x.freePeriod
    · intro i n hm
      rw [hmode] at hm
      cases hm
  obtain ⟨hc, hreset⟩ | ⟨i, cfg, -, hlock, -, rfl⟩ | hmoves := h.input_cases
  · subst hc
    cases h with
    | unchanged => exact hold
    | answered => exact hold
    | resetReleased =>
      obtain rfl | hx : (DomainContext.reset).holdsSettings x := reset_domain d ▸ hx
      · intro i n hm; cases hm
      · cases hx
    | freezeRequested hc => obtain ⟨b, hc | hc⟩ := hc <;> cases hc
    | domainStarted hc => cases hc
  · rw [State.configured_domain, DomainContext.monitored_frame] at hx
    intro j n hm
    dsimp only
    rw [State.configured_input]
    split
    · rename_i hj
      rw [InputContext.restart_frame]
      exact State.lockFault_eq_none.1 hlock d x hx n (hj ▸ hm)
    · exact hold j n hm
  · intro i n hm
    dsimp only
    rw [(hmoves i).config]
    exact hold i n hm

/-! ### Modes -/

/-- The mode state of a domain follows its mode, and is LOCKED only while its lock input is (R89, R93, R95). -/
def ModeFollows (monitor : InputId → MonitorState) (c : DomainContext) : Prop :=
  match c.settings.mode with
  | .free => c.mode = .free
  | .lock i _ => c.mode ≠ .free ∧ (c.mode = .locked → monitor i = .locked)

theorem modeLaw_iff {s : State} : ModeLaw s ↔ ∀ d, ModeFollows (fun i => (s.input i).monitor) (s.domain d) := by
  have h : ∀ d, modeLawful s (s.domain d) = true ↔ ModeFollows (fun i => (s.input i).monitor) (s.domain d) := by
    intro d
    unfold modeLawful ModeFollows
    cases (s.domain d).settings.mode with
    | free => simp
    | lock i n => by_cases hl : (s.domain d).mode = .locked <;> simp [hl]
  exact ⟨fun hs d => (h d).1 (hs d (mem_allDomains d)), fun hs d _ => (h d).2 (hs d)⟩

/-- A monitor heard of when it leaves LOCKED keeps the mode states following (R95). -/
theorem ModeFollows.monitored {f g : InputId → MonitorState} {c : DomainContext} (h : ModeFollows f c) (i : InputId)
    (hg : ∀ j, j ≠ i → g j = f j) : ModeFollows g (c.monitored i (f i) (g i)) := by
  unfold ModeFollows at h ⊢
  rw [DomainContext.monitored_frame]
  dsimp only
  cases hm : c.settings.mode with
  | free =>
    rw [hm] at h
    have hmode : c.mode = .free := h
    simp [DomainContext.monitored, hmode]
  | lock j n =>
    rw [hm] at h
    obtain ⟨hfree, hlocked⟩ := h
    by_cases hj : j = i
    · subst hj
      by_cases hl : c.mode = .locked
      · by_cases hgl : g j = .locked <;> simp [DomainContext.monitored, DomainSettings.locksTo, hm, hl, hlocked hl, hgl]
      · simp [DomainContext.monitored, hl, hfree]
    · have hlocks : c.settings.locksTo i = false := by simp [DomainSettings.locksTo, hm, hj]
      simpa [DomainContext.monitored, hlocks, hg j hj] using ⟨hfree, hlocked⟩

/-- A FRAME_START reported to its domain keeps the mode states following (R93). -/
theorem ModeFollows.reported {f : InputId → MonitorState} {c : DomainContext} (h : ModeFollows f c) {i : InputId} {x : InputContext}
    (hx : x.monitor = f i) (now : Time) : ModeFollows f (c.reported i x now) := by
  unfold ModeFollows at h ⊢
  cases hm : c.settings.mode with
  | free => simpa [DomainContext.reported, hm] using h
  | lock j n =>
    rw [hm] at h
    by_cases hl : j = i ∧ x.monitor = .locked
    · simp [DomainContext.reported, hm, hl, ← hx]
    · simpa [DomainContext.reported, hm, hl] using h

/-- Settings that take effect set the mode state by their mode (R100). -/
theorem ModeFollows.takeSettings {f : InputId → MonitorState} {c : DomainContext} (h : ModeFollows f c) :
    ModeFollows f (c.takeSettings fun i => f i = .locked) := by
  unfold DomainContext.takeSettings
  cases hp : c.pendingSettings with
  | none => exact h
  | some t =>
    cases hm : t.mode with
    | free => simp [ModeFollows, hm]
    | lock i n => by_cases hl : f i = .locked <;> simp [ModeFollows, hm, hl]

/-- FRAME_START leaves an input LOCKED exactly where ending an open frame early left it so (R54, R63). -/
theorem InputContext.frameStarted_monitor (c : InputContext) (now : Time) (tag : Half) :
    (c.frameStarted now tag).monitor = if c.endedEarly.monitor = .absent then .acquiring else c.endedEarly.monitor := by
  have hbegin : (c.endedEarly.beginFrame now tag c.endedEarly.freeSlot).monitor = c.endedEarly.monitor := by
    cases c.endedEarly.freeSlot <;> rfl
  unfold InputContext.frameStarted InputContext.firstFrame
  rw [hbegin]
  split
  · rfl
  · exact hbegin

/-- Every row keeps the mode states following the modes and the monitors (R89, R93, R95). -/
theorem modeLaw_effect {s t : State} {c : Instr} (h : Effect s c t) (hs : ModeLaw s) : ModeLaw t := by
  have hs := modeLaw_iff.1 hs
  refine modeLaw_iff.2 fun d => ?_
  have hd := hs d
  cases h.domainMove with
  | same hmonitor hdomain => rw [hdomain]; simpa only [hmonitor] using hd
  | monitored i hmonitor hdomain =>
    rw [hdomain]
    exact hd.monitored (g := fun i => (t.input i).monitor) i hmonitor
  | started i tag hmonitor hinput hdomain =>
    rw [hdomain]
    refine ModeFollows.reported ?_ rfl _
    have hended : (s.domain d).monitored i (s.input i).monitor (s.input i).endedEarly.monitor =
        (s.domain d).monitored i (s.input i).monitor (t.input i).monitor := by
      rw [hinput, InputContext.frameStarted_monitor]
      split
      · rename_i ha
        simp [DomainContext.monitored, ha]
      · rfl
    rw [hended]
    exact hd.monitored (g := fun i => (t.input i).monitor) i hmonitor
  | requested e m p hmode hmonitor hdomain =>
    rw [hdomain]
    simp only [hmonitor]
    split
    · exact hs e
    · exact hd
  | worked e hmonitor hdomain =>
    rw [hdomain]
    simp only [hmonitor]
    split
    · exact (hs e).takeSettings
    · exact hd
  | reset hdomain => rw [hdomain]; rfl

/-! ### Presentation sync -/

/-- The agreeing run counts only in SYNC_LOST, and then 0 to 2 (R103). -/
def SyncCounts (sync : SyncState) (run : Nat) : Prop := run ≤ 2 ∧ (sync ≠ .syncLost → run = 0)

theorem syncLaw_iff {s : State} : SyncLaw s ↔ ∀ d, SyncCounts (s.domain d).sync (s.domain d).agreeingRun :=
  ⟨fun h d => h d (mem_allDomains d), fun h d _ => h d⟩

theorem SyncCounts.next {sync : SyncState} {run : Nat} (h : SyncCounts sync run) (p q : Summary) :
    SyncCounts (nextSync sync run p q).1 (nextSync sync run p q).2 := by
  obtain ⟨htwo, hzero⟩ := h
  unfold nextSync SyncCounts
  cases sync with
  | unsynced | synced =>
    have hzero := hzero (by simp)
    split
    · cases intervalVerdict p q <;> simp [hzero]
    · simp [hzero]
  | syncLost =>
    split
    · cases intervalVerdict p q with
      | agree =>
        dsimp only
        split
        · simp
        · simp; omega
      | disagree | neutral => simp
    · simp

/-- Every row keeps the agreeing run counting in SYNC_LOST alone (R103). -/
theorem syncLaw_effect {s t : State} {c : Instr} (h : Effect s c t) (hs : SyncLaw s) : SyncLaw t := by
  have hs := syncLaw_iff.1 hs
  refine syncLaw_iff.2 fun d => ?_
  cases h.domainMove with
  | same _ hdomain => rw [hdomain]; exact hs d
  | monitored i _ hdomain => rw [hdomain, DomainContext.monitored_frame]; exact hs d
  | started i tag _ _ hdomain => rw [hdomain, DomainContext.reported_frame, DomainContext.monitored_frame]; exact hs d
  | requested e m p _ _ hdomain =>
    rw [hdomain]
    split
    · exact hs e
    · exact hs d
  | worked e _ hdomain =>
    rw [hdomain]
    split
    · obtain ⟨-, -, hsync, hrun⟩ := (s.domain e).takeSettings_settings fun i => (s.input i).monitor = .locked
      have htaken : SyncCounts ((s.domain e).takeSettings fun i => (s.input i).monitor = .locked).sync
          ((s.domain e).takeSettings fun i => (s.input i).monitor = .locked).agreeingRun := by
        rw [hsync, hrun]
        exact hs e
      exact htaken.next _ _
    · exact hs d
  | reset hdomain => rw [hdomain]; exact ⟨Nat.zero_le _, fun _ => rfl⟩

end Sys2Proof.Machine

namespace Sys2Proof.Safety
open Sys2Proof.Machine

/-- Settles O60: each law is kept by every row, and a step that runs none changes no block. -/
theorem stepKeepsInputsDomainsAndLinks : Obligations.StepKeepsInputsDomainsAndLinks := by
  intro s t hstep
  have keeps : ∀ {P : State → Prop}, (∀ (s : State) a b c, P s → P { s with timeBase := a, pending := b, choiceCount := c }) →
      (∀ s c t, Effect s c t → P s → P t) → P s → P t := fun hsame heffect hs =>
    step_keeps (fun s t hst hs => by obtain ⟨a, b, c, rfl⟩ := hst.exists; exact hsame s a b c hs) heffect hstep hs
  exact ⟨keeps (fun _ _ _ _ h => h) fun _ _ _ => inputLaw_effect, keeps (fun _ _ _ _ h => h) fun _ _ _ => linkLaw_effect,
    keeps (fun _ _ _ _ h => h) fun _ _ _ => modeLaw_effect, keeps (fun _ _ _ _ h => h) fun _ _ _ => delayLaw_effect,
    keeps (fun _ _ _ _ h => h) fun _ _ _ => syncLaw_effect⟩

end Sys2Proof.Safety
end


section
/-! SUPPORT. The device as a whole: what every row leaves, the reset pin, the idle step, and that a refused command leaves a response alone. -/

namespace Sys2Proof.Machine
open Sys2Proof.Safety

/-- Every row of the table answers a next state: nothing stops the part. -/
theorem exec_next (c : Instr) (s : State) : ∃ t, exec c s = .next t := by
  by_cases hc : c = .resetnRelease
  · subst hc; exact ⟨_, rfl⟩
  · obtain ⟨f, hf⟩ := exec_whileRunning c s hc
    exact ⟨_, hf.trans (whileRunning_eq s f)⟩

/-- While RESETn is held low only its release has an effect (R184). -/
theorem exec_resetLow {c : Instr} {s : State} (hc : c ≠ .resetnRelease) (hlow : s.resetLow = true) : exec c s = .next s := by
  obtain ⟨f, hf⟩ := exec_whileRunning c s hc
  rw [hf, whileRunning_eq, hlow]
  rfl

theorem Port.fetch_csLow (p : Port) (n : Nat) : (p.fetch n).csLow = p.csLow := rfl

/-- Neither the queue nor the level of CS is any row's, and the time base only that of the release of RESETn (R185). -/
theorem Effect.outside {s t : State} {c : Instr} (h : Effect s c t) :
    t.pending = s.pending ∧ t.port.csLow = s.port.csLow ∧ (c ≠ .resetnRelease → t.timeBase = s.timeBase) := by
  cases h with
  | resetReleased => exact ⟨rfl, rfl, fun hc => absurd rfl hc⟩
  | resetAsserted =>
    have hfold := s.disarm_frame allHandles
    unfold State.assertReset
    rw [hfold]
    exact ⟨rfl, rfl, fun _ => rfl⟩
  | unchanged | answered => exact ⟨rfl, rfl, fun _ => rfl⟩
  | frameStarted => rw [State.reportStarts_frame]; simp
  | domainStarted => simp
  | fetched => exact ⟨rfl, Port.fetch_csLow .., fun _ => rfl⟩
  | _ => simp

/-! ### The reset pin -/

theorem InputContext.abandon_eq (c : InputContext) :
    c.abandon = { c with openFrame := none, slots := c.abandon.slots } := by
  unfold InputContext.abandon
  split
  · rename_i hf; rw [← hf]
  · split <;> rfl

/-- Abandoning an open frame gives no slot the latest mark (R184). -/
theorem InputContext.abandon_latest {c : InputContext} {k : SlotIndex} (h : (c.abandon.slots.get k).latest = true) :
    (c.slots.get k).latest = true := by
  unfold InputContext.abandon at h
  split at h
  · exact h
  · split at h
    · rename_i j _
      rw [PerSlot.get_set] at h
      split at h
      · cases h
      · exact h
    · exact h

theorem exec_resetnAssert {s : State} (hrun : s.resetLow = false) : exec .resetnAssert s = .next s.assertReset := by
  change whileRunning s State.assertReset = _
  rw [whileRunning_eq, hrun]
  rfl

/-- What the fall of RESETn leaves outside the table, the inputs, the composers and the links (R184). -/
theorem State.assertReset_rest (s : State) :
    s.assertReset.resetLow = true ∧ s.assertReset.timeBase = s.timeBase ∧ (∀ d, s.assertReset.domain d = s.domain d) ∧
      s.assertReset.notices = s.notices ∧ s.assertReset.port = { s.port with transaction := .idle } ∧
      ∀ sc, (s.assertReset.composer sc).composition = none := by
  refine ⟨rfl, ?_, s.assertReset_domain, ?_, ?_, fun sc => by cases sc <;> rfl⟩
  all_goals
    unfold State.assertReset
    rw [State.disarm_frame]

/-- A row that may be a frame start is no command of the port. -/
theorem isCommand_of_isFrameStart {c : Instr} (h : isFrameStart c = true) : isCommand c = false := by
  cases c with
  | domainFrameStart | trainingWindowExpiry | linkResetEnd => rfl
  | _ => cases h

/-- No row takes a command without leaving its response, and one that is no OK leaves nothing else (R170, R174). -/
theorem Effect.response {s t : State} {c : Instr} (h : Effect s c t) (hc : isCommand c = true) (hrun : s.resetLow = false) :
    ∃ r, t.port = { s.port with buffer := some r } ∧ r.code.isTaken ∧ (r.code ≠ .ok → t = { s with port := t.port }) := by
  have done : ∀ {u : State} {body : List Byte}, u.port = s.port →
      ∃ r, (u.respond .ok body).port = { s.port with buffer := some r } ∧ r.code.isTaken ∧
        (r.code ≠ .ok → u.respond .ok body = { s with port := (u.respond .ok body).port }) := by
    intro u body hu
    exact ⟨⟨.ok, body⟩, by rw [← hu]; rfl, ⟨nofun, nofun⟩, fun hne => absurd rfl hne⟩
  cases h with
  | unchanged _ hlow => rw [hlow hc] at hrun; cases hrun
  | answered _ code body hcode => exact ⟨⟨code, body⟩, rfl, hcode hc, fun _ => rfl⟩
  | freezeRequested => exact done (by simp)
  | domainStarted hframe => exact absurd hc (by simp [isCommand_of_isFrameStart hframe])
  | opened | amended | freed | retired | armed | sourceConfigured | sourceRestarted | screenConfigured | toneStored | linkEnabled | linkDisabled
  | linkReset | resetRenewed | domainSet => exact done (by simp)
  | noticeTaken | masked => exact done rfl
  | fetched | frameStarted | lineTaken | frameEnded | expired | lineHanded | returnTaken | resetAsserted | resetReleased => cases hc

/-! ### The idle step -/

/-- The events due are those whose timer or next start is the time base (R61, R90). -/
theorem State.mem_dueEvents {s : State} {e : Instr} :
    e ∈ s.dueEvents ↔ (∃ i, e = .missingFrameExpiry i ∧ (s.input i).timer = some s.timeBase) ∨
      ∃ d, e = .domainFrameStart d ∧ (s.domain d).nextStart = s.timeBase := by
  unfold State.dueEvents
  simp only [List.mem_append, List.mem_map, List.mem_filter, InputContext.expiryDue, State.frameDue, decide_eq_true_eq, mem_allInputs,
    mem_allDomains, true_and]
  constructor
  · rintro (⟨i, hi, rfl⟩ | ⟨d, hd, rfl⟩)
    · exact .inl ⟨i, rfl, hi⟩
    · exact .inr ⟨d, rfl, hd⟩
  · rintro (⟨i, rfl, hi⟩ | ⟨d, rfl, hd⟩)
    · exact .inl ⟨i, hi, rfl⟩
    · exact .inr ⟨d, hd, rfl⟩

/-- One of the events due is taken next, whichever the free order names (log entry 2). -/
theorem State.nextEvent_mem {s : State} (h : s.dueEvents ≠ []) : ∃ e ∈ s.dueEvents, s.nextEvent = some e := by
  unfold State.nextEvent
  split
  · rename_i hnil
    exact absurd hnil h
  · rename_i e heq
    exact ⟨e, by simp [heq], rfl⟩
  · have hlt := Nat.mod_lt (Config.dueOrder s.choiceCount) (List.length_pos_iff.2 h)
    exact ⟨_, List.getElem_mem hlt, List.getElem?_eq_getElem hlt⟩

theorem State.nextEvent_none {s : State} (h : s.dueEvents = []) : s.nextEvent = none := by
  unfold State.nextEvent
  rw [h]

theorem step_event {s : State} {e : Instr} (hidle : s.pending = []) (hrun : s.resetLow = false) (he : s.nextEvent = some e) :
    step s = exec e { s with choiceCount := s.choiceCount + 1 } := by
  unfold step
  simp [hidle, hrun, he]

theorem step_tick {s : State} (hidle : s.pending = []) (hrun : s.resetLow = false) (he : s.nextEvent = none) : step s = .next s.tick := by
  unfold step
  simp [hidle, hrun, he]

/-! ### The state after release -/

theorem reset_composer (sc : Screen) : State.reset.composer sc = .reset := by cases sc <;> rfl

/-- After release no record is in any set taken from the table. -/
theorem reset_members (image : Placement → Option Image) (hs : List Handle) : members State.reset image hs = [] :=
  List.filterMap_eq_nil_iff.2 fun h _ => by rw [reset_placement]

theorem reset_targets (sc : Screen) (image : Placement → Option Image) : targets State.reset sc image = [] :=
  List.filterMap_eq_nil_iff.2 fun h _ => by rw [reset_placement]

theorem reset_liveList (sc : Screen) : State.reset.liveList sc = [] := by cases sc <;> rfl

theorem reset_placementCount (sc : Screen) : State.reset.placementCount sc = 0 :=
  State.placementCount_eq_zero.2 fun h p hp => absurd hp (by simp [reset_placement])

theorem reset_holderCount (r : SlotRef) : holderCount State.reset r = 0 := by
  simp [holderCount, reset_placement]

theorem reset_slot (r : SlotRef) : State.reset.slot r = .empty := by
  obtain ⟨i, k⟩ := r
  cases i <;> cases k <;> rfl

/-- No line is covered by no rectangle (R31). -/
theorem overlapFault_nil (height : Nat) : overlapFault height [] = none :=
  overlapFault_eq_none.2 fun l _ => by simp [lineCoverage]

end Sys2Proof.Machine

namespace Sys2Proof.Safety
open Sys2Proof.Machine

/-- Settles O1: the step is defined so, on the queue without its front. -/
theorem stepRunsTheFrontCommand : Obligations.StepRunsTheFrontCommand := fun _ _ => rfl

/-- Settles O2: by RESETn, and by whether an event is due. -/
theorem idleStepLetsTimePass : Obligations.IdleStepLetsTimePass := by
  intro s hidle
  refine ⟨fun hlow => ?_, fun hrun hinputs hdomains => ?_, fun hrun hdue => ?_⟩
  · unfold step
    simp only [hidle, hlow, if_true]
  · have hnone : s.dueEvents = [] := List.eq_nil_iff_forall_not_mem.2 fun e he => by
      obtain ⟨i, -, hi⟩ | ⟨d, -, hd⟩ := State.mem_dueEvents.1 he
      · exact hinputs i hi
      · exact hdomains d hd
    exact step_tick hidle hrun (State.nextEvent_none hnone)
  · have hsome : s.dueEvents ≠ [] := by
      obtain ⟨i, hi⟩ | ⟨d, hd⟩ := hdue
      · exact List.ne_nil_of_mem (State.mem_dueEvents.2 (.inl ⟨i, rfl, hi⟩))
      · exact List.ne_nil_of_mem (State.mem_dueEvents.2 (.inr ⟨d, rfl, hd⟩))
    obtain ⟨e, he, hnext⟩ := State.nextEvent_mem hsome
    exact ⟨e, step_event hidle hrun hnext, State.mem_dueEvents.1 he⟩

/-- Settles O3: every row answers, and its effect reaches neither the queue nor the time base. -/
theorem commandsMoveNoTimeAndNoneStops : Obligations.CommandsMoveNoTimeAndNoneStops := by
  intro c s
  obtain ⟨t, ht⟩ := exec_next c s
  obtain ⟨hpending, hcs, htime⟩ := (exec_effect ht).outside
  refine ⟨t, ht, hpending, hcs, fun hc => ⟨htime hc, fun hlow => ?_⟩⟩
  exact Host.Outcome.next.inj (ht.symm.trans (exec_resetLow hc hlow))

/-- Settles O4: what the fall leaves in each block, and the state the rise gives. -/
theorem resetPinEndsAndRestarts : Obligations.ResetPinEndsAndRestarts := by
  intro s
  refine ⟨fun hrun => ?_, rfl⟩
  obtain ⟨hlow, htime, hdomain, hnotices, hport, hcomposer⟩ := s.assertReset_rest
  refine ⟨s.assertReset, exec_resetnAssert hrun, hlow, by simp [State.attn, hlow], htime, fun i => ?_, s.assertReset_record, fun sc => ?_, hdomain,
    hnotices, hport⟩
  · rw [s.assertReset_input]
    refine ⟨?_, ?_, ?_, fun k => InputContext.abandon_latest⟩ <;> rw [InputContext.abandon_eq]
  · rw [s.assertReset_link]
    exact ⟨hcomposer sc, rfl, rfl, rfl, rfl, rfl⟩

/-- Settles O5: the table is empty, and every other block holds its reset values. -/
theorem resetStateIsSafe : Obligations.ResetStateIsSafe := by
  have hnone : ∀ {h : Handle} {p : Placement}, p ∉ State.reset.placement h := by simp [reset_placement]
  have hfault : ∀ sc, selectFault sc [] = none := fun sc => by cases sc <;> decide
  have htable : TableSafe State.reset := by
    refine ⟨fun h p hp => absurd hp hnone, fun h p hp => absurd hp hnone, fun h p hp => absurd hp hnone, fun sc _ => ?_, fun sc _ => ?_,
      fun sc _ => ?_, fun sc _ => ?_, fun sc _ => ?_⟩
    · rw [reset_placementCount]; decide
    · rw [reset_liveList]; exact ⟨rfl, .nil⟩
    · rw [reset_targets, reset_targets, overlapFault_nil]; exact ⟨rfl, rfl⟩
    · rw [drawnSet, appliedSet, reset_members, reset_members, reset_members]; exact ⟨rfl, rfl⟩
    · rw [drawnSet, appliedSet, reset_members, reset_members, reset_members]; exact ⟨hfault sc, hfault sc⟩
  have hstore : StoreSafe State.reset := by
    refine ⟨fun i _ k _ => ?_, fun i _ => ?_, fun i _ => ?_, fun h p hp => absurd hp hnone, fun h p hp => absurd hp hnone,
      fun h p hp => absurd hp hnone, fun h p hp => absurd hp hnone, fun sc _ => ?_, fun i _ k _ => ?_⟩
    · rw [reset_slot, reset_holderCount]; rfl
    · rw [reset_input]; decide
    · rw [reset_input]; decide
    · rw [reset_composer, reset_link]; decide
    · rw [reset_slot]; nofun
  have hblocks : BlocksSafe State.reset := by
    refine ⟨fun i _ => ?_, fun d _ => ?_, fun d _ => ?_, fun d _ => ?_, fun sc _ => ?_, .nil, nofun⟩
    · rw [reset_input]; decide
    · rw [reset_domain]; rfl
    · rw [reset_domain]; exact ⟨rfl, nofun⟩
    · rw [reset_domain]; decide
    · rw [reset_link]; decide
  exact ⟨htable, hstore, hblocks⟩

/-- Settles O6: every effect of a command ends in a response. -/
theorem refusedCommandChangesOnlyTheResponse : Obligations.RefusedCommandChangesOnlyTheResponse := by
  intro c s t hc hrun h
  obtain ⟨r, hport, ⟨hnothing, hbad⟩, hrest⟩ := (exec_effect h).response hc hrun
  exact ⟨r, hport, hnothing, hbad, hrest⟩

end Sys2Proof.Safety
end


section
/-! SUPPORT. The reading commands and the commands on placements: what the bytes of a body name, and the whole effect of each command (R13 to R25). -/

namespace Sys2Proof.Machine
open Sys2Proof.Safety

/-! ### Bytes that name nothing -/

theorem handleOf_eq_none {b : Byte} : handleOf b = none ↔ 64 ≤ b.toNat := by
  unfold handleOf
  split <;> simp <;> omega

theorem screenOf_of_ge {b : Byte} (h : 4 ≤ b.toNat) : screenOf b = none := by
  unfold screenOf
  split <;> first | rfl | omega

theorem inputOf_of_ge {b : Byte} (h : 4 ≤ b.toNat) : inputOf b = none := by
  unfold inputOf
  split <;> first | rfl | omega

theorem domainOf_of_ge {b : Byte} (h : 2 ≤ b.toNat) : domainOf b = none := by
  have hzero : b ≠ 0 := by rintro rfl; exact absurd h (by decide)
  have hone : b ≠ 1 := by rintro rfl; exact absurd h (by decide)
  rw [domainOf, twoWay, if_neg hzero, if_neg hone]

/-! ### What is taken while RESETn is high -/

theorem whileRunning_of {s : State} (hrun : s.resetLow = false) (f : State → State) : whileRunning s f = .next (f s) := by
  rw [whileRunning_eq, hrun]
  rfl

theorem onScreenNamed_of {s : State} {b : Byte} {sc : Screen} (hrun : s.resetLow = false) (hsc : screenOf b = some sc)
    (f : Screen → State → State) : onScreenNamed b f s = .next (f sc s) := by
  rw [onScreenNamed, whileRunning_of hrun, hsc]

theorem onScreenNamed_none {s : State} {b : Byte} (hrun : s.resetLow = false) (hsc : screenOf b = none) (f : Screen → State → State) :
    onScreenNamed b f s = .next (s.respond .badField []) := by
  rw [onScreenNamed, whileRunning_of hrun, hsc]
  rfl

/-! ### OPEN -/

theorem exec_openPlacement {s : State} (hrun : s.resetLow = false) {b0 b1 b2 : Byte} {raw : Option RawImage} {sc : Screen}
    {cls : PlacementClass} {sel : Bool} {m : Image} (h0 : screenOf b0 = some sc) (h1 : classOf b1 = some cls) (h2 : yesNoOf b2 = some sel)
    (hm : raw.bind imageOf = some m) : exec (.openPlacement b0 b1 b2 raw) s = .next (s.openImage sc cls sel m) := by
  change execOpenPlacement b0 b1 b2 raw s = _
  rw [execOpenPlacement, whileRunning_of hrun, h0, h1, h2, hm]

theorem exec_openPlacement_bad {s : State} (hrun : s.resetLow = false) {b0 b1 b2 : Byte} {raw : Option RawImage}
    (hbad : screenOf b0 = none ∨ classOf b1 = none ∨ yesNoOf b2 = none ∨ raw.bind imageOf = none) :
    exec (.openPlacement b0 b1 b2 raw) s = .next (s.respond .badField []) := by
  change execOpenPlacement b0 b1 b2 raw s = _
  rw [execOpenPlacement, whileRunning_of hrun]
  split
  · rename_i h0 h1 h2 hm
    simp [h0, h1, h2, hm] at hbad
  · rfl

/-- An OPEN whose image passes and that finds a FREE record and room on its screen (R18). -/
theorem State.openImage_passed {s : State} {sc : Screen} {cls : PlacementClass} {sel : Bool} {m : Image} {h : Handle}
    (hcheck : s.checkImage sc cls sel m = none) (hfree : s.lowestFree = some h) (hcount : s.placementCount sc < 16) :
    s.openImage sc cls sel m = ((s.advanceGeneration h).setBody h (some (.opened sc cls sel m))).respond .ok
      [BitVec.ofNat 8 h.val, (s.record h).generation + 1] := by
  unfold State.openImage
  simp [hcheck, hfree, Nat.not_le.2 hcount, handleItem, byteItem, generationItem]

theorem State.openImage_failed {s : State} {sc : Screen} {cls : PlacementClass} {sel : Bool} {m : Image} {code : ResultCode}
    (hcheck : s.checkImage sc cls sel m = some code) : s.openImage sc cls sel m = s.respond code [] := by
  unfold State.openImage
  rw [hcheck]
  rfl

theorem State.openImage_noEntry {s : State} {sc : Screen} {cls : PlacementClass} {sel : Bool} {m : Image}
    (hcheck : s.checkImage sc cls sel m = none) (hfree : s.lowestFree = none) : s.openImage sc cls sel m = s.respond .noEntry [] := by
  unfold State.openImage
  rw [hcheck, hfree]
  rfl

theorem State.openImage_screenFull {s : State} {sc : Screen} {cls : PlacementClass} {sel : Bool} {m : Image}
    (hcheck : s.checkImage sc cls sel m = none) (hfree : s.lowestFree ≠ none) (hcount : 16 ≤ s.placementCount sc) :
    s.openImage sc cls sel m = s.respond .screenFull [] := by
  obtain ⟨h, hh⟩ := Option.ne_none_iff_exists'.1 hfree
  unfold State.openImage
  simp [hcheck, hh, hcount, State.refuse]

/-! ### AMEND and RETIRE -/

theorem exec_amend {s : State} (hrun : s.resetLow = false) {b g u : Byte} {es : List RawField} {h : Handle} {unc : Bool}
    (hh : handleOf b = some h) (hu : yesNoOf u = some unc) : exec (.amend b g u (some es)) s = .next (s.amendRecord h g unc es) := by
  change execAmend b g u (some es) s = _
  rw [execAmend, whileRunning_of hrun, hh, hu]

theorem exec_retire {s : State} (hrun : s.resetLow = false) {b g u : Byte} {h : Handle} {unc : Bool}
    (hh : handleOf b = some h) (hu : yesNoOf u = some unc) : exec (.retire b g u) s = .next (s.retireRecord h g unc) := by
  change execRetire b g u s = _
  rw [execRetire, whileRunning_of hrun, hh, hu]

theorem exec_amend_bad {s : State} (hrun : s.resetLow = false) {b g u : Byte} {es : Option (List RawField)}
    (hbad : handleOf b = none ∨ yesNoOf u = none ∨ es = none) : exec (.amend b g u es) s = .next (s.respond .badField []) := by
  change execAmend b g u es s = _
  rw [execAmend, whileRunning_of hrun]
  split
  · rename_i hh hu
    simp [hh, hu] at hbad
  · rfl

theorem exec_retire_bad {s : State} (hrun : s.resetLow = false) {b g u : Byte} (hbad : handleOf b = none ∨ yesNoOf u = none) :
    exec (.retire b g u) s = .next (s.respond .badField []) := by
  change execRetire b g u s = _
  rw [execRetire, whileRunning_of hrun]
  split
  · rename_i hh hu
    simp [hh, hu] at hbad
  · rfl

/-- Which check on the record fails first (R19, R21). -/
theorem recordFault_eq {s : State} {h : Handle} {p : Placement} (hp : s.placement h = some p) (g : BitVec 8) (unc : Bool) :
    recordFault (s.record h) g unc =
      if p.armed = true then some .armed
      else if unc = false ∧ g ≠ (s.record h).generation then some .staleGeneration
      else if p.retireStaged = true then some .wrongState
      else none := by
  simp [recordFault, hp]

theorem recordFault_free {s : State} {h : Handle} (hp : s.placement h = none) (g : BitVec 8) (unc : Bool) :
    recordFault (s.record h) g unc = some .notOpen := by
  simp [recordFault, hp]

/-- A record that fails a check has AMEND and RETIRE refused with its code (R19, R21). -/
theorem State.recordRefused {s : State} {h : Handle} {g : BitVec 8} {unc : Bool} {code : ResultCode}
    (hfault : recordFault (s.record h) g unc = some code) (es : List RawField) :
    s.amendRecord h g unc es = s.respond code [] ∧ s.retireRecord h g unc = s.respond code [] := by
  unfold State.amendRecord State.retireRecord
  rw [hfault]
  exact ⟨rfl, rfl⟩

theorem State.amendRecord_passed {s : State} {h : Handle} {p : Placement} {g : BitVec 8} {unc : Bool} {es : List RawField}
    (hfault : recordFault (s.record h) g unc = none) (hp : s.placement h = some p) :
    s.amendRecord h g unc es = match s.amendedImage p es with
      | .error code => s.respond code []
      | .ok m => ((s.advanceGeneration h).modPlacement h fun p => { p with staged := m }).respond .ok [(s.record h).generation + 1] := by
  unfold State.amendRecord
  rw [hfault, hp]
  dsimp only
  cases s.amendedImage p es with
  | error code => rfl
  | ok m => simp [generationItem]

theorem State.retireRecord_new {s : State} {h : Handle} {p : Placement} {g : BitVec 8} {unc : Bool}
    (hfault : recordFault (s.record h) g unc = none) (hp : s.placement h = some p) (hnew : p.committed = none) :
    s.retireRecord h g unc = (s.freeRecord h).respond .ok [(s.record h).generation, 0] := by
  unfold State.retireRecord
  rw [hfault, hp]
  simp [Placement.isLive, hnew, generationItem, Record.state, recordStateItem, byteItem]

theorem State.retireRecord_live {s : State} {h : Handle} {p : Placement} {g : BitVec 8} {unc : Bool}
    (hfault : recordFault (s.record h) g unc = none) (hp : s.placement h = some p) (hlive : p.committed ≠ none) :
    s.retireRecord h g unc = ((s.advanceGeneration h).modPlacement h fun p => { p with retireStaged := true }).respond .ok
      [(s.record h).generation + 1, 2] := by
  obtain ⟨m, hm⟩ := Option.ne_none_iff_exists'.1 hlive
  unfold State.retireRecord
  rw [hfault, hp]
  simp [Placement.isLive, hm, hp, generationItem, Record.state, recordStateItem, byteItem]

/-- A record without a latch is freed without a change in the picture store (R42, R181). -/
theorem State.freeRecord_unlatched {s : State} {h : Handle} {p : Placement} (hp : s.placement h = some p) (hlatch : p.latched = none) :
    s.freeRecord h = { s with
      table := (s.freeRecord h).table
      notices := { s.notices with entries := s.notices.entries.filter fun e => e.key ≠ .view h ∧ e.key ≠ .safetyView h } } := by
  have hinputs : (s.setLatch h none).inputs = s.inputs := by simp [State.setLatch, hp, hlatch, State.moveHolder]
  have hfilter : (fun e : NoticeEntry => e.key != .view h && e.key != .safetyView h) =
      fun e => decide (e.key ≠ .view h ∧ e.key ≠ .safetyView h) := by
    funext e
    simp [bne]
    rfl
  apply State.ext_fields
  case h4 => simpa [State.freeRecord] using hinputs
  case h9 =>
    rw [← hfilter]
    simp [State.freeRecord]
  all_goals simp

/-! ### FREEZE and THAW -/

theorem State.requestFreeze_free {s : State} {b : Byte} {h : Handle} (hh : handleOf b = some h) (hp : s.placement h = none) (r : FreezeRequest) :
    s.requestFreeze b r = s.respond .notOpen [] := by
  unfold State.requestFreeze
  rw [hh]
  dsimp only
  rw [hp]
  rfl

theorem State.requestFreeze_bad {s : State} {b : Byte} (hh : handleOf b = none) (r : FreezeRequest) :
    s.requestFreeze b r = s.respond .badField [] := by
  unfold State.requestFreeze
  rw [hh]
  rfl

/-- The checks of FREEZE and THAW on a record, and their effect (R22). -/
theorem State.requestFreeze_placed {s : State} {b : Byte} {h : Handle} {p : Placement} (hh : handleOf b = some h)
    (hp : s.placement h = some p) (r : FreezeRequest) :
    s.requestFreeze b r =
      if p.cls = .safety then s.respond .safetyRule []
      else if p.committed = none then s.respond .wrongState []
      else (s.modPlacement h fun p => { p with freezeRequest := some r }).respond .ok (optionItem freezeItem (some r)) := by
  unfold State.requestFreeze
  rw [hh]
  dsimp only
  rw [hp]
  simp [Placement.isLive, State.refuse]

end Sys2Proof.Machine

namespace Sys2Proof.Safety
open Sys2Proof.Machine

/-- Settles O7: each command by the byte it carries. -/
theorem queriesReportAndChangeNothing : Obligations.QueriesReportAndChangeNothing := by
  intro s b hrun
  have lookup : exec (.lookup b) s = execLookup b s := rfl
  have listScreen : exec (.listScreen b) s = execListScreen b s := rfl
  have queryScreen : exec (.queryScreen b) s = execQueryScreen b s := rfl
  have listSource : exec (.listSource b) s = execListSource b s := rfl
  have querySource : exec (.querySource b) s = execQuerySource b s := rfl
  have queryDomain : exec (.queryDomain b) s = execQueryDomain b s := rfl
  refine ⟨fun h hh => ?_, fun sc hsc => ⟨?_, ?_⟩, fun i hi => ⟨?_, ?_⟩, fun d hd => ?_, fun hb => ?_, fun hb => ⟨?_, ?_, ?_, ?_⟩, fun hb => ?_⟩
  · rw [lookup, execLookup, whileRunning_of hrun, hh]
  · rw [listScreen, execListScreen, whileRunning_of hrun, hsc]; rfl
  · rw [queryScreen, execQueryScreen, onScreenNamed_of hrun hsc]
  · rw [listSource, execListSource, whileRunning_of hrun, hi]; rfl
  · rw [querySource, execQuerySource, whileRunning_of hrun, hi]
  · rw [queryDomain, execQueryDomain, whileRunning_of hrun, hd]
  · rw [lookup, execLookup, whileRunning_of hrun, handleOf_eq_none.2 hb]; rfl
  · rw [listScreen, execListScreen, whileRunning_of hrun, screenOf_of_ge hb]; rfl
  · rw [queryScreen, execQueryScreen, onScreenNamed_none hrun (screenOf_of_ge hb)]
  · rw [listSource, execListSource, whileRunning_of hrun, inputOf_of_ge hb]; rfl
  · rw [querySource, execQuerySource, whileRunning_of hrun, inputOf_of_ge hb]; rfl
  · rw [queryDomain, execQueryDomain, whileRunning_of hrun, domainOf_of_ge hb]; rfl

/-- Settles O8: the record written, the others, and the count of the screen. -/
theorem openTakesTheLowestFreeRecord : Obligations.OpenTakesTheLowestFreeRecord := by
  intro s b0 b1 b2 raw sc cls sel m h hrun h0 h1 h2 hm hcheck hfree hlowest hcount
  refine ⟨_, (exec_openPlacement (raw := some raw) hrun h0 h1 h2 hm).trans (congrArg _ (State.openImage_passed hcheck
    (State.lowestFree_eq_some.2 ⟨hfree, hlowest⟩) hcount)), ?_, fun k hk => ?_, ?_, rfl⟩
  · simp [Placement.opened]
  · simp [hk]
  · rw [placementCount_one (p := .opened sc cls sel m) hfree fun k => by simp]
    simp [Placement.opened]

/-- Settles O9: by the first check that fails. -/
theorem openRefusesInOrder : Obligations.OpenRefusesInOrder := by
  intro s b0 b1 b2 raw hrun
  refine ⟨exec_openPlacement_bad hrun, fun sc cls sel m h0 h1 h2 hm => ?_⟩
  rw [exec_openPlacement hrun h0 h1 h2 hm]
  refine ⟨fun code hcode => congrArg _ (State.openImage_failed hcode), fun hcheck => ⟨fun hfull => ?_, fun hfree hcount => ?_⟩⟩
  · exact congrArg _ (State.openImage_noEntry hcheck (State.lowestFree_eq_none.2 hfull))
  · obtain ⟨h, hh⟩ := hfree
    exact congrArg _ (State.openImage_screenFull hcheck (fun hnone => State.lowestFree_eq_none.1 hnone h hh) hcount)

/-- Settles O11: by the first check that fails, on the byte, the record and then the list. -/
theorem amendAndRetireRefuseInOrder : Obligations.AmendAndRetireRefuseInOrder := by
  intro s b g u es hrun c hc
  have hbad : (handleOf b = none ∨ yesNoOf u = none) → exec c s = .next (s.respond .badField []) := by
    intro hbad
    simp only [List.mem_cons, List.not_mem_nil, or_false] at hc
    obtain rfl | rfl := hc
    · exact exec_amend_bad hrun (hbad.imp_right .inl)
    · exact exec_retire_bad hrun hbad
  refine ⟨hbad, exec_amend_bad hrun (.inr (.inr rfl)), fun h unc hh hu => ?_⟩
  have hfault : ∀ code, recordFault (s.record h) g unc = some code → exec c s = .next (s.respond code []) := by
    intro code hcode
    obtain ⟨hamend, hretire⟩ := State.recordRefused hcode es
    simp only [List.mem_cons, List.not_mem_nil, or_false] at hc
    obtain rfl | rfl := hc
    · rw [exec_amend hrun hh hu, hamend]
    · rw [exec_retire hrun hh hu, hretire]
  refine ⟨fun hp => hfault _ (recordFault_free hp g unc), fun p hp => ?_⟩
  have heq := recordFault_eq hp g unc
  refine ⟨fun harmed => hfault _ (by rw [heq, if_pos harmed]), fun harmed hunc hg => hfault _ (by rw [heq]; simp [harmed, hunc, hg]),
    fun harmed hgeneration => ⟨fun hretired => hfault _ ?_, fun hretired => ?_⟩⟩
  · obtain hunc | hg := hgeneration
    · rw [heq]; simp [harmed, hunc, hretired]
    · rw [heq]; simp [harmed, hg, hretired]
  · have hnone : recordFault (s.record h) g unc = none := by
      obtain hunc | hg := hgeneration
      · rw [heq]; simp [harmed, hunc, hretired]
      · rw [heq]; simp [harmed, hg, hretired]
    have hamend : ∀ code, s.amendedImage p es = .error code → exec (.amend b g u (some es)) s = .next (s.respond code []) := by
      intro code hcode
      rw [exec_amend hrun hh hu, State.amendRecord_passed hnone hp, hcode]
    refine ⟨fun hfixed => hamend _ ?_, hamend⟩
    have hany : es.any RawField.isFixed = true := by simpa [RawField.isFixed] using hfixed
    rw [State.amendedImage, if_pos hany]

/-- Settles O13: of a NEW record, and of a LIVE one. -/
theorem retireFreesNewAndStagesLive : Obligations.RetireFreesNewAndStagesLive := by
  intro s b g u h unc p hrun hh hu hp harmed hgeneration hretired
  have hnone : recordFault (s.record h) g unc = none := by
    obtain hunc | hg := hgeneration
    · rw [recordFault_eq hp]; simp [harmed, hunc, hretired]
    · rw [recordFault_eq hp]; simp [harmed, hg, hretired]
  rw [exec_retire hrun hh hu]
  refine ⟨fun hnew hlatch => ⟨_, congrArg _ (State.retireRecord_new hnone hp hnew), by simp, fun k hk => by simp [hk], ?_⟩,
    fun hlive => ⟨_, congrArg _ (State.retireRecord_live hnone hp hlive), by simp [hp], fun k hk => by simp [hk], ?_⟩⟩
  · rw [State.freeRecord_unlatched hp hlatch]; rfl
  · apply State.ext_fields <;> simp

end Sys2Proof.Safety
end


section
/-! SUPPORT. The list of an AMEND field by field (R19, R20), the freeze request at a frame start (R22, R135), and COMMIT (R29 to R34). -/

namespace Sys2Proof.Machine
open Sys2Proof.Safety

/-! ### The fields of an image -/

/-- Two images with the same value in the field of this number (R188). -/
def Image.SameField (m m' : Image) : Nat → Prop
  | 1 => m'.source = m.source
  | 2 => m'.sourceRect = m.sourceRect
  | 3 => m'.target = m.target
  | 4 => m'.layer = m.layer
  | 5 => m'.opacity = m.opacity
  | 6 => m'.blend = m.blend
  | 7 => m'.key = m.key
  | 8 => m'.policy = m.policy
  | 9 => m'.alternate = m.alternate
  | 10 => m'.fill = m.fill
  | 11 => m'.holdLimit = m.holdLimit
  | 12 => m'.choices = m.choices
  | _ => True

theorem Image.SameField.refl (m : Image) (n : Nat) : m.SameField m n := by
  unfold Image.SameField
  split <;> trivial

theorem Image.SameField.trans {m m' m'' : Image} {n : Nat} (h : m.SameField m' n) (h' : m'.SameField m'' n) : m.SameField m'' n := by
  unfold Image.SameField at *
  split at h <;> first | exact h'.trans h | trivial

/-- Writing a field leaves every other field as it is (R20). -/
theorem Image.write_sameField {m m' : Image} {f : RawField} (h : m.write f = some m') {n : Nat} (hn : n ≠ f.number) : m.SameField m' n := by
  unfold Image.SameField
  revert hn
  cases f with
  | source | blend | key | policy | alternate | choices =>
    obtain ⟨x, -, rfl⟩ := Option.map_eq_some_iff.1 h
    split <;> first | exact fun _ => rfl | exact fun _ => trivial | exact fun hn => (hn rfl).elim
  | _ =>
    obtain rfl := Option.some.inj h
    split <;> first | exact fun _ => rfl | exact fun _ => trivial | exact fun hn => (hn rfl).elim

/-- A field written has the value given (R20). -/
theorem Image.write_write {m m' : Image} {f : RawField} (h : m.write f = some m') : m'.write f = some m' := by
  cases f with
  | source | blend | key | policy | alternate | choices =>
    obtain ⟨x, hx, rfl⟩ := Option.map_eq_some_iff.1 h
    exact Option.map_eq_some_iff.2 ⟨x, hx, rfl⟩
  | _ =>
    obtain rfl := Option.some.inj h
    rfl

/-- Whether a field has the value given is a matter of that field alone. -/
theorem Image.write_of_sameField {m m' : Image} {f : RawField} (h : m.write f = some m) (hsame : m.SameField m' f.number) :
    m'.write f = some m' := by
  cases m
  cases m'
  cases f with
  | source | blend | key | policy | alternate | choices =>
    obtain ⟨x, hx, hm⟩ := Option.map_eq_some_iff.1 h
    cases hsame
    cases hm
    exact Option.map_eq_some_iff.2 ⟨_, hx, rfl⟩
  | fixedScreen | fixedClass | fixedSelectable => rfl
  | _ =>
    have hm := Option.some.inj h
    cases hsame
    cases hm
    rfl

theorem Image.writeAll_sameField {m m' : Image} {fs : List RawField} (h : m.writeAll fs = some m') {n : Nat}
    (hn : n ∉ fs.map RawField.number) : m.SameField m' n := by
  induction fs generalizing m with
  | nil =>
    obtain rfl := Option.some.inj h
    exact .refl m n
  | cons f fs ih =>
    simp only [List.map_cons, List.mem_cons, not_or] at hn
    unfold Image.writeAll at h
    split at h
    · rename_i m1 h1
      exact (Image.write_sameField h1 hn.1).trans (ih h hn.2)
    · cases h

/-- Every field of a list without repeats has the value given (R20). -/
theorem Image.writeAll_write {m m' : Image} {fs : List RawField} (h : m.writeAll fs = some m') (hnodup : (fs.map RawField.number).Nodup)
    {f : RawField} (hf : f ∈ fs) : m'.write f = some m' := by
  induction fs generalizing m with
  | nil => cases hf
  | cons g fs ih =>
    obtain ⟨hg, hnodup⟩ := List.nodup_cons.1 hnodup
    unfold Image.writeAll at h
    split at h
    · rename_i m1 h1
      obtain rfl | hf := List.mem_cons.1 hf
      · exact Image.write_of_sameField (Image.write_write h1) (Image.writeAll_sameField h hg)
      · exact ih h hnodup hf
    · cases h

end Sys2Proof.Machine

namespace Sys2Proof.Safety
open Sys2Proof.Machine

/-- Settles O12: the record written, and the list field by field. -/
theorem amendStagesTheImage : Obligations.AmendStagesTheImage := by
  intro s b g u es h unc p m hrun hh hu hp harmed hgeneration hretired hm
  have hnone : recordFault (s.record h) g unc = none := by
    rw [recordFault_eq hp]
    obtain hunc | hg := hgeneration
    · simp [harmed, hunc, hretired]
    · simp [harmed, hg, hretired]
  obtain ⟨hfixed, hne, hnodup, hwrite, hcheck⟩ := State.amendedImage_eq_ok.1 hm
  have same : ∀ {n : Nat}, n ∉ es.map RawField.number → p.staged.SameField m n := fun hn => Image.writeAll_sameField hwrite hn
  refine ⟨⟨_, (exec_amend hrun hh hu).trans (congrArg _ ((State.amendRecord_passed hnone hp).trans (by rw [hm]))), ?_, fun k hk => ?_, ?_⟩,
    hne, hnodup, fun f hf => ⟨hfixed f hf, Image.writeAll_write hwrite hnodup hf⟩, hcheck, same, same, same, same, same, same, same, same,
    same, same, same, same⟩
  · simp [hp]
  · simp [hk]
  · apply State.ext_fields <;> simp

end Sys2Proof.Safety

namespace Sys2Proof.Machine
open Sys2Proof.Safety

/-! ### The freeze request at a frame start -/

/-- A record that is not LIVE on the screen, or has no request, is left by step 3 as it is (R135). -/
theorem State.takeFreezes_record_same {s : State} {sc : Screen} {h : Handle} {p : Placement} (hp : s.placement h = some p)
    (hnot : p.committed = none ∨ p.screen ≠ sc ∨ p.freezeRequest = none) : (s.takeFreezes sc).record h = s.record h := by
  refine State.record_ext (s.takeFreezes_generation sc h) ?_
  rw [State.takeFreezes_placement]
  split
  · rename_i hmem
    obtain ⟨q, hq, hsc, hlive⟩ := State.mem_liveList_iff.1 hmem
    obtain rfl := Option.some.inj (hq.symm.trans hp)
    obtain hnew | hother | hrequest := hnot
    · exact absurd hnew hlive
    · exact absurd hsc hother
    · rw [hp, Option.map_some, Placement.freezeTaken, hrequest]
  · rfl

/-- The freeze request of a LIVE record of the screen taken (R135). -/
theorem State.takeFreezes_record_live {s : State} {sc : Screen} {h : Handle} {p : Placement} (hp : s.placement h = some p)
    (hlive : p.committed ≠ none) (hsc : p.screen = sc) : (s.takeFreezes sc).record h = { s.record h with body := some p.freezeTaken } := by
  have hplace : (s.takeFreezes sc).placement h = some p.freezeTaken := by
    rw [State.takeFreezes_placement, if_pos (State.mem_liveList_iff.2 ⟨p, hp, hsc, hlive⟩), hp, Option.map_some]
  have hgeneration := s.takeFreezes_generation sc h
  rw [← State.record_body] at hplace
  generalize (s.takeFreezes sc).record h = r at hplace hgeneration
  cases r
  cases hplace
  cases hgeneration
  rfl

/-- A record LIVE on the screen after a composer's frame start has no request left, and is frozen as the request before asked (R135). -/
theorem State.composerStart_freeze {s : State} {sc : Screen} {n : Nat} {h : Handle} {p q : Placement} (hp : s.placement h = some p)
    (hq : (s.composerStart sc n).placement h = some q) (hsc : q.screen = sc) (hlive : q.committed ≠ none) :
    q.freezeRequest = none ∧ q.frozen = (match p.freezeRequest with | none => p.frozen | some r => decide (r = .freeze)) := by
  have happlied : ∀ x, (s.applyArmed sc n).placement h = some x → x.freezeRequest = p.freezeRequest ∧ x.frozen = p.frozen := by
    have hafter : ∀ x, s.afterApplication sc n h = some x → x.freezeRequest = p.freezeRequest ∧ x.frozen = p.frozen := by
      intro x hx
      simp only [State.afterApplication, hp, Option.bind_some] at hx
      split at hx
      · obtain ⟨-, -, -, -, -, -, hfrozen, hrequest, -⟩ := Placement.applied_eq_some hx
        exact ⟨hrequest, hfrozen⟩
      · obtain rfl := Option.some.inj hx
        exact ⟨rfl, rfl⟩
    intro x hx
    obtain he | ⟨y, j, hy, -, he⟩ := s.applyArmed_placement_cases sc n h
    · exact hafter x (he ▸ hx)
    · obtain rfl := Option.some.inj (he.symm.trans hx)
      exact hafter y hy
  have hchosen : ∀ x, ((s.applyArmed sc n).takeChoice sc).placement h = some x → x.freezeRequest = p.freezeRequest ∧ x.frozen = p.frozen := by
    intro x hx
    obtain he | ⟨y, m, i, hy, -, -, hm, -, he⟩ := (s.applyArmed sc n).takeChoice_placement_cases sc h
    · exact happlied x (he ▸ hx)
    · obtain rfl := Option.some.inj (he.symm.trans hx)
      rw [Placement.chosen_eq i hm]
      exact happlied y hy
  have hbefore : ∀ x, (s.beforeViews sc n).placement h = some x → x.screen = sc → x.committed ≠ none →
      x.freezeRequest = none ∧ x.frozen = (match p.freezeRequest with | none => p.frozen | some r => decide (r = .freeze)) := by
    intro x hx hxsc hxlive
    simp only [State.beforeViews, State.takeTone_rest] at hx
    rw [State.takeFreezes_placement] at hx
    split at hx
    · obtain ⟨y, hy, rfl⟩ := Option.map_eq_some_iff.1 hx
      obtain ⟨hrequest, hfrozen⟩ := hchosen y hy
      rw [Placement.freezeTaken_eq, ← hrequest, ← hfrozen]
      exact ⟨rfl, rfl⟩
    · rename_i hmem
      exact absurd (State.mem_liveList_iff.2 ⟨x, hx, hxsc, hxlive⟩) hmem
  rw [State.composerStart_placement] at hq
  split at hq
  · obtain ⟨x, hx, rfl⟩ := Option.map_eq_some_iff.1 hq
    cases hm : x.committed with
    | none => simp [Placement.decided, hm] at hlive
    | some m =>
      rw [Placement.decided_eq _ hm] at hsc ⊢
      exact hbefore x hx hsc (by simp [hm])
  · exact hbefore q hq hsc hlive

/-- The state a screen's composer is handed at the frame start of its domain (R39, R90). -/
def State.handedTo (s : State) (sc : Screen) : State :=
  if sc = (domainScreens (screenDomain sc)).1 then s.domainWork (screenDomain sc)
  else (s.domainWork (screenDomain sc)).composerStart (domainScreens (screenDomain sc)).1
    ((s.domainWork (screenDomain sc)).domain (screenDomain sc)).frameNumber

/-- The frame number a screen's composer is handed (R90). -/
def State.newFrame (s : State) (d : Domain) : Nat := ((s.domainWork d).domain d).frameNumber

/-- At its domain's frame start a record of a screen goes through that screen's composer, from as it was before (R39, R90). -/
theorem State.domainStart_record_own {s : State} {h : Handle} {p : Placement} (hp : s.placement h = some p) :
    (s.handedTo p.screen).placement h = some p ∧ ((s.handedTo p.screen).record h).generation = (s.record h).generation ∧
      (s.domainStart (screenDomain p.screen)).record h =
        ((s.handedTo p.screen).composerStart p.screen (s.newFrame (screenDomain p.screen))).record h := by
  have hwork : (s.domainWork (screenDomain p.screen)).record h = s.record h := by simp
  have hpwork : (s.domainWork (screenDomain p.screen)).placement h = some p := by simpa using hp
  rw [State.domainStart_record]
  unfold State.handedTo State.newFrame
  obtain hfirst | hsecond := screenDomain_eq_iff.1 (rfl : screenDomain p.screen = screenDomain p.screen)
  · rw [if_pos hfirst, ← hfirst]
    refine ⟨hpwork, by rw [hwork], State.composerStart_record_other _ fun q hq => ?_⟩
    obtain ⟨p', hp', hscreen, -⟩ := State.composerStart_screen hq
    obtain rfl := Option.some.inj (hp'.symm.trans hpwork)
    rw [hscreen]
    exact fun he => domainScreens_ne _ (hfirst.symm.trans he)
  · have hne : p.screen ≠ (domainScreens (screenDomain p.screen)).1 := fun he => domainScreens_ne _ (he.symm.trans hsecond)
    have hother : ((s.domainWork (screenDomain p.screen)).composerStart (domainScreens (screenDomain p.screen)).1
        ((s.domainWork (screenDomain p.screen)).domain (screenDomain p.screen)).frameNumber).record h = s.record h :=
      (State.composerStart_record_other _ fun q hq => by
        obtain rfl := Option.some.inj (hq.symm.trans hpwork)
        exact hne).trans hwork
    rw [if_neg hne, ← hsecond]
    exact ⟨by rw [← State.record_body, hother]; exact hp, by rw [hother], rfl⟩

/-- A domain frame start that is due is one (R90). -/
theorem exec_domainFrameStart {s : State} {d : Domain} (hrun : s.resetLow = false) (hdue : (s.domain d).nextStart = s.timeBase) :
    exec (.domainFrameStart d) s = .next (s.domainStart d) := by
  change execDomainFrameStart d s = _
  rw [execDomainFrameStart, whileRunning_of hrun, State.frameDue, decide_eq_true hdue]
  rfl

/-- A domain frame start that is not due does not happen (log entry 4). -/
theorem exec_domainFrameStart_notDue {s : State} {d : Domain} (hrun : s.resetLow = false) (hdue : (s.domain d).nextStart ≠ s.timeBase) :
    exec (.domainFrameStart d) s = .next s := by
  change execDomainFrameStart d s = _
  rw [execDomainFrameStart, whileRunning_of hrun, State.frameDue, decide_eq_false hdue]
  rfl

/-! ### COMMIT -/

theorem exec_commit {s : State} (hrun : s.resetLow = false) {l : List Byte} {named : List Screen} (hl : readAll screenOf l = some named) :
    exec (.commit (some l)) s = .next (if named = [] ∨ ¬named.Nodup then s.respond .badField []
      else s.commitScreens (allScreens.filter named.contains)) := by
  change execCommit (some l) s = _
  rw [execCommit, whileRunning_of hrun, Option.bind_some, hl]
  simp [State.refuse]

theorem exec_commit_bad {s : State} (hrun : s.resetLow = false) {l : Option (List Byte)} (hl : l.bind (readAll screenOf) = none) :
    exec (.commit l) s = .next (s.respond .badField []) := by
  change execCommit l s = _
  rw [execCommit, whileRunning_of hrun, hl]
  rfl

/-- The screens stand in ascending order of their numbers. -/
theorem allScreens_sorted : allScreens.Pairwise fun a b => screenNumber a < screenNumber b := by decide

/-- The first screen in ascending order that fails gives the answer (R30). -/
theorem findSome_firstFault {α : Type} {f : Screen → Option α} {named : List Screen} {sc : Screen} {a : α} (hmem : sc ∈ named)
    (hbefore : ∀ x ∈ named, screenNumber x < screenNumber sc → f x = none) (ha : f sc = some a) :
    (allScreens.filter named.contains).findSome? f = some a := by
  have hsc : sc ∈ allScreens.filter named.contains := by simp [mem_allScreens, hmem]
  obtain ⟨before, after, heq⟩ := List.append_of_mem hsc
  have hsorted := heq ▸ allScreens_sorted.filter named.contains
  refine List.findSome?_eq_some_iff.2 ⟨before, sc, after, heq, ha, fun x hx => hbefore x ?_ ?_⟩
  · have hin : x ∈ allScreens.filter named.contains := heq ▸ List.mem_append_left _ hx
    simpa using (List.mem_filter.1 hin).2
  · exact (List.pairwise_append.1 hsorted).2.2 x hx sc (List.mem_cons_self ..)

theorem State.commitScreens_fault {s : State} {named : List Screen} {code : ResultCode} {details : List Byte}
    (h : named.findSome? s.admissionFault = some (code, details)) : s.commitScreens named = s.respond code details := by
  unfold State.commitScreens
  rw [h]

theorem State.commitScreens_passed {s : State} {named : List Screen} (h : ∀ sc ∈ named, s.admissionFault sc = none) :
    s.commitScreens named = (s.arm named).respond .ok (listItem (fun sc => byteItem ((s.arm named).armedCount sc)) named) := by
  unfold State.commitScreens
  rw [List.findSome?_eq_none_iff.2 h]

/-- What arming writes in a record (R34). -/
theorem armRecord_eq (named : List Screen) (p : Placement) :
    armRecord named p =
      if p.screen ∈ named ∧ (p.retireStaged = true ∨ p.committed ≠ some p.staged) then { p with armed := true } else p := by
  simp [armRecord, Placement.hasStagedDifferences]

/-- The handles on a screen that meet a test, by the records (R34). -/
theorem State.armedCount_eq (s : State) (sc : Screen) :
    s.armedCount sc = (allHandles.filter fun h => (s.placement h).any fun p => decide (p.screen = sc) && p.armed).length := by
  unfold State.armedCount State.handlesOn
  congr 2
  funext h
  unfold State.onScreen
  cases s.placement h with
  | none => rfl
  | some p => by_cases hsc : p.screen = sc <;> simp [hsc]

/-- The details of the three admission faults (R30). -/
theorem State.admissionFault_overlap {s : State} {sc : Screen} {line n : Nat}
    (h : overlapFault (s.link sc).config.height ((s.wouldBe sc).map fun c => c.image.target) = some (line, n)) :
    s.admissionFault sc = some (.overlapLimit,
      [BitVec.ofNat 8 (screenNumber sc), BitVec.ofNat 8 line, BitVec.ofNat 8 (line / 256), BitVec.ofNat 8 n]) := by
  unfold State.admissionFault
  dsimp only
  rw [h]
  rfl

theorem State.admissionFault_occlusion {s : State} {sc : Screen} {h k : Handle}
    (hnone : overlapFault (s.link sc).config.height ((s.wouldBe sc).map fun c => c.image.target) = none)
    (hfault : occlusionFault (s.wouldBe sc) = some (h, k)) :
    s.admissionFault sc = some (.occlusion, [BitVec.ofNat 8 (screenNumber sc), BitVec.ofNat 8 h.val, BitVec.ofNat 8 k.val]) := by
  unfold State.admissionFault
  dsimp only
  rw [hnone, hfault]
  rfl

theorem State.admissionFault_select {s : State} {sc : Screen} {h k : Handle}
    (hnone : overlapFault (s.link sc).config.height ((s.wouldBe sc).map fun c => c.image.target) = none)
    (hocclusion : occlusionFault (s.wouldBe sc) = none) (hfault : selectFault sc (s.wouldBe sc) = some (h, k)) :
    s.admissionFault sc = some (.selectLimit, [BitVec.ofNat 8 (screenNumber sc), BitVec.ofNat 8 h.val, BitVec.ofNat 8 k.val]) := by
  unfold State.admissionFault
  dsimp only
  rw [hnone, hocclusion]
  dsimp only
  rw [hfault]
  rfl

end Sys2Proof.Machine

namespace Sys2Proof.Safety
open Sys2Proof.Machine

/-- Settles O14: the byte, the frame start, and the command on a record. -/
theorem freezeAndThawSetTheRequest : Obligations.FreezeAndThawSetTheRequest := by
  have freeze : ∀ s b, exec (.freeze b) s = execFreeze b s := fun _ _ => rfl
  have thaw : ∀ s b, exec (.thaw b) s = execThaw b s := fun _ _ => rfl
  refine ⟨fun s b hrun hb => ?_, fun s sc h p hp => ⟨State.takeFreezes_record_same hp, fun m r hm hsc hr => ?_⟩,
    fun s t d h p q hrun hdue hexec hp hq hd hlive => ?_, fun s b h hrun hh x hx => ?_⟩
  · have hnone := handleOf_eq_none.2 hb
    rw [freeze, execFreeze, whileRunning_of hrun, thaw, execThaw, whileRunning_of hrun, State.requestFreeze_bad hnone, State.requestFreeze_bad hnone]
    exact ⟨rfl, rfl⟩
  · rw [State.takeFreezes_record_live hp (by simp [hm]) hsc, Placement.freezeTaken_eq, hr]
    have hforeign : p.holdsForeignSlot = p.latched.any fun x => decide (m.source ≠ .input x.input) := by
      cases hl : p.latched with
      | none => simp [Placement.holdsForeignSlot, hl]
      | some x => simp only [Placement.holdsForeignSlot, hl, hm, Option.any_some, decide_not, bne]; rfl
    simp only [Option.some.injEq, hforeign]
  · obtain rfl := Host.Outcome.next.inj ((exec_domainFrameStart hrun hdue).symm.trans hexec)
    obtain ⟨q', hq', hscreen⟩ := State.domainStart_screen hq
    obtain rfl := Option.some.inj (hq'.symm.trans hp)
    subst hd
    rw [hscreen.1] at hq
    obtain ⟨hpre, -, hrecord⟩ := State.domainStart_record_own hp
    exact State.composerStart_freeze hpre ((congrArg Record.body hrecord).symm.trans hq) hscreen.1 hlive
  · have hexec : exec x.1 s = .next (s.requestFreeze b x.2.1) := by
      simp only [List.mem_cons, List.not_mem_nil, or_false] at hx
      obtain rfl | rfl := hx
      · rw [freeze, execFreeze, whileRunning_of hrun]
      · rw [thaw, execThaw, whileRunning_of hrun]
    have hanswer : optionItem freezeItem (some x.2.1) = [1, x.2.2] := by
      simp only [List.mem_cons, List.not_mem_nil, or_false] at hx
      obtain rfl | rfl := hx <;> rfl
    rw [hexec]
    refine ⟨fun hp => congrArg _ (State.requestFreeze_free hh hp _), fun p hp => ?_⟩
    rw [State.requestFreeze_placed hh hp, hanswer]
    refine ⟨fun hcls => by rw [if_pos hcls], fun hcls hnew => by simp [hcls, hnew], fun hcls hlive => ⟨_, rfl, ?_, fun k hk => ?_, ?_⟩⟩
    · simp [hcls, hlive, hp]
    · simp [hcls, hlive, hk]
    · simp only [hcls, hlive, if_false, reduceCtorEq]
      apply State.ext_fields <;> simp

/-- Settles O15: the records armed, and the answer. -/
theorem commitArmsEveryStagedDifference : Obligations.CommitArmsEveryStagedDifference := by
  intro s l named hrun hl hne hnodup hpass
  have hmem : ∀ sc, sc ∈ allScreens.filter named.contains ↔ sc ∈ named := fun sc => by simp [mem_allScreens]
  have hlength : (allScreens.filter named.contains).length = named.length :=
    ((List.perm_ext_iff_of_nodup ((by decide : allScreens.Nodup).filter _) hnodup).2 hmem).length_eq
  refine ⟨_, (exec_commit hrun hl).trans (by
    rw [if_neg (by simp [hne, hnodup]), State.commitScreens_passed fun sc hsc => hpass sc ((hmem sc).1 hsc)]), fun h => ?_, ?_⟩
  · rw [State.respond_record, State.arm_record]
    have hfun : armRecord (allScreens.filter named.contains) = fun p =>
        if p.screen ∈ named ∧ (p.retireStaged = true ∨ p.committed ≠ some p.staged) then { p with armed := true } else p := by
      funext p
      simp only [armRecord_eq, hmem]
    rw [hfun]
  · have hfilter : named.contains = fun sc => decide (sc ∈ named) := by
      funext sc
      simp
    apply State.ext_fields
    case h8 =>
      rw [← hfilter]
      simp [listItem, byteItem, hlength, State.armedCount_eq, List.map_eq_flatMap]
    all_goals simp

/-- Settles O16: the list, and the first screen that fails with its first check that fails. -/
theorem commitReportsTheFirstFault : Obligations.CommitReportsTheFirstFault := by
  intro s l hrun
  refine ⟨exec_commit_bad hrun rfl, fun hl => exec_commit_bad hrun hl, fun named hl => ⟨fun hbad => ?_, fun sc hsc hnodup hbefore => ?_⟩⟩
  · rw [exec_commit hrun hl, if_pos hbad]
  · have hfault : ∀ code details, s.admissionFault sc = some (code, details) →
        exec (.commit (some l)) s = .next (s.respond code details) := by
      intro code details h
      rw [exec_commit hrun hl, if_neg (by simp [List.ne_nil_of_mem hsc, hnodup]), State.commitScreens_fault (findSome_firstFault hsc hbefore h)]
    exact ⟨fun line n h => hfault _ _ (State.admissionFault_overlap h), fun hnone => ⟨fun h k hocc => hfault _ _
      (State.admissionFault_occlusion hnone hocc), fun hocc h k hsel => hfault _ _ (State.admissionFault_select hnone hocc hsel)⟩⟩

end Sys2Proof.Safety
end


section
/-! SUPPORT. The links: the commands on a screen, status returns, a link's frame start, training, and the table of the moves of a link's state
(R144 to R163, R189). -/

namespace Sys2Proof.Machine
open Sys2Proof.Safety

/-! ### The frame start of a link -/

/-- The link as the judgement of the interval leaves it at a frame start: what it goes on sending by (R151). -/
def LinkContext.judged (l : LinkContext) : LinkContext := l.closeFrame.judgeInterval

/-- The tail a frame in transmission is closed with (R146). -/
def LinkContext.closing (l : LinkContext) : List LinkMessage := match l.transmission with | some x => [.frameTail x.linesSent] | none => []

/-- What a link begins sending in its new state (R145, R147). -/
def LinkContext.beginning (c : ScreenConfig) (frame : Nat) : LinkState → List LinkMessage
  | .up => [.frameHead frame c.width c.height c.depth]
  | .training | .recovering => [.trainingFrame frame c.width c.height c.depth]
  | _ => []

/-- Three intervals in a row with a TRAINED return end the training (R153). -/
theorem LinkContext.judgeTraining_up {l : LinkContext} (h : l.interval.trainedSeen = true ∧ 2 ≤ l.trainedRun) : l.judgeTraining = l.toUp := by
  unfold LinkContext.judgeTraining
  simp [h.1, h.2]

/-- Any other interval counts on, and the 32nd halts the link (R153). -/
theorem LinkContext.judgeTraining_not {l : LinkContext} (h : ¬(l.interval.trainedSeen = true ∧ 2 ≤ l.trainedRun)) :
    l.judgeTraining = { l with
      trainedRun := if l.interval.trainedSeen then l.trainedRun + 1 else 0
      windowCount := l.windowCount + 1
      state := if 31 ≤ l.windowCount then .halted else l.state } := by
  unfold LinkContext.judgeTraining
  dsimp only
  have hrun : ¬3 ≤ if l.interval.trainedSeen then l.trainedRun + 1 else 0 := by
    split
    · rename_i hseen
      exact fun hthree => h ⟨hseen, by omega⟩
    · omega
  rw [if_neg hrun]
  by_cases hwindow : 31 ≤ l.windowCount
  · rw [if_pos (by omega), if_pos hwindow]; rfl
  · rw [if_neg (by omega), if_neg hwindow]

/-- The interval that sends an UP link to RECOVERING: the fourth missing return in a row, or the third with errors over the threshold (R155,
R156). -/
def LinkContext.losesUp (l : LinkContext) : Prop :=
  4 ≤ (if l.interval.returned then 0 else l.missingRun + 1) ∨
    3 ≤ (if l.config.threshold = 0 then l.errorRun else if l.interval.overThreshold then l.errorRun + 1 else 0)

/-- An UP link with the interval just judged entered in its runs and its missing total (R155, R156). -/
def LinkContext.counted (l : LinkContext) : LinkContext :=
  { l with
    missingRun := if l.interval.returned then 0 else l.missingRun + 1
    errorRun := if l.config.threshold = 0 then l.errorRun else if l.interval.overThreshold then l.errorRun + 1 else 0
    missingTotal := if l.interval.returned then l.missingTotal else satSucc 65535 l.missingTotal }

theorem LinkContext.judgeUp_recovering {l : LinkContext} (h : l.losesUp) : l.judgeUp = l.counted.toRecovering := if_pos h

theorem LinkContext.judgeUp_stays {l : LinkContext} (h : ¬l.losesUp) : l.judgeUp = l.counted := if_neg h

/-- What the judgement of an interval can make of a link (R151, R153, R155, R156, R161). -/
theorem LinkContext.judgeInterval_cases (l : LinkContext) :
    ((l.state = .training ∨ l.state = .recovering) ∧ (l.interval.trainedSeen = true ∧ 2 ≤ l.trainedRun) ∧ l.judgeInterval = l.toUp) ∨
    ((l.state = .training ∨ l.state = .recovering) ∧ ¬(l.interval.trainedSeen = true ∧ 2 ≤ l.trainedRun) ∧
      l.judgeInterval = { l with
        trainedRun := if l.interval.trainedSeen then l.trainedRun + 1 else 0
        windowCount := l.windowCount + 1
        state := if 31 ≤ l.windowCount then .halted else l.state }) ∨
    (l.state = .up ∧ l.losesUp ∧ l.judgeInterval = l.counted.toRecovering) ∨
    (l.state = .up ∧ ¬l.losesUp ∧ l.judgeInterval = l.counted) ∨
    (l.state = .resetting ∧ ∃ n, l.resetCount = some n ∧ 2 ≤ n ∧ l.judgeInterval = { l with resetCount := some (n - 1) }) ∨
    (l.state = .resetting ∧ ∃ n, l.resetCount = some n ∧ n < 2 ∧ l.judgeInterval = l.toTraining) ∨
    ((l.state = .down ∨ l.state = .halted ∨ (l.state = .resetting ∧ l.resetCount = none)) ∧ l.judgeInterval = l) := by
  have training : l.state = .training ∨ l.state = .recovering → l.judgeInterval = l.judgeTraining := by
    rintro (h | h) <;> simp [LinkContext.judgeInterval, h]
  have hcases : (l.state = .training ∨ l.state = .recovering) ∨ l.state = .up ∨ l.state = .resetting ∨ l.state = .down ∨ l.state = .halted := by
    cases l.state <;> simp
  obtain hstate | hstate | hstate | hstate | hstate := hcases
  · by_cases h : l.interval.trainedSeen = true ∧ 2 ≤ l.trainedRun
    · exact .inl ⟨hstate, h, (training hstate).trans (LinkContext.judgeTraining_up h)⟩
    · exact .inr (.inl ⟨hstate, h, (training hstate).trans (LinkContext.judgeTraining_not h)⟩)
  · have hup : l.judgeInterval = l.judgeUp := by simp [LinkContext.judgeInterval, hstate]
    by_cases h : l.losesUp
    · exact .inr (.inr (.inl ⟨hstate, h, hup.trans (LinkContext.judgeUp_recovering h)⟩))
    · exact .inr (.inr (.inr (.inl ⟨hstate, h, hup.trans (LinkContext.judgeUp_stays h)⟩)))
  · have hreset : l.judgeInterval = l.judgeReset := by simp [LinkContext.judgeInterval, hstate]
    cases hcount : l.resetCount with
    | none => exact .inr (.inr (.inr (.inr (.inr (.inr ⟨.inr (.inr ⟨hstate, rfl⟩), by simp [hreset, LinkContext.judgeReset, hcount]⟩)))))
    | some n =>
      by_cases hn : 2 ≤ n
      · exact .inr (.inr (.inr (.inr (.inl ⟨hstate, n, rfl, hn, by simp [hreset, LinkContext.judgeReset, hcount, hn]⟩))))
      · exact .inr (.inr (.inr (.inr (.inr (.inl ⟨hstate, n, rfl, by omega, by simp [hreset, LinkContext.judgeReset, hcount, hn]⟩)))))
  · exact .inr (.inr (.inr (.inr (.inr (.inr ⟨.inl hstate, by simp [LinkContext.judgeInterval, hstate]⟩)))))
  · exact .inr (.inr (.inr (.inr (.inr (.inr ⟨.inr (.inl hstate), by simp [LinkContext.judgeInterval, hstate]⟩)))))

/-- A judgement writes the state, the runs, the window, the reset count, the missing total and the recoveries, and clears the interval record
where it enters a state that does (R153, R155, R156, R161). -/
theorem LinkContext.judgeInterval_rest (l : LinkContext) :
    (l.judgeInterval.tone, l.judgeInterval.lastReturn, l.judgeInterval.pendingChoice, l.judgeInterval.errorTotal, l.judgeInterval.badChoices) =
      (l.tone, l.lastReturn, l.pendingChoice, l.errorTotal, l.badChoices) := by
  obtain ⟨-, -, h⟩ | ⟨-, -, h⟩ | ⟨-, -, h⟩ | ⟨-, -, h⟩ | ⟨-, n, -, -, h⟩ | ⟨-, n, -, -, h⟩ | ⟨-, h⟩ := l.judgeInterval_cases <;> rw [h] <;> rfl

/-- A link's frame start is the judgement of the interval between the closing and the beginning of what is sent (R151). -/
theorem LinkContext.frameStart_eq (l : LinkContext) (n : Nat) :
    l.frameStart n = { l.judged with
      interval := .empty
      sent := l.sent ++ l.closing ++ LinkContext.beginning l.config n l.judged.state
      transmission := if l.judged.state = .up then some ⟨n, 0⟩ else none
      framesSent := if l.judged.state = .up then l.framesSent + 1 else l.framesSent } := by
  have hclosed : l.closeFrame.sent = l.sent ++ l.closing ∧ l.closeFrame.config = l.config ∧ l.closeFrame.framesSent = l.framesSent ∧
      l.closeFrame.transmission = none := by
    rw [LinkContext.closeFrame_eq]
    exact ⟨rfl, rfl, rfl, rfl⟩
  obtain ⟨hsent, hconfig, hframes, hsending⟩ := hclosed
  obtain ⟨hsent', hconfig', hframes', hsending'⟩ := l.closeFrame.judgeInterval_keeps
  unfold LinkContext.frameStart LinkContext.beginSending LinkContext.judged
  rw [← hsent, ← hsent', ← hconfig, ← hconfig', ← hframes, ← hframes']
  generalize l.closeFrame.judgeInterval = k at *
  dsimp only
  have hnone := hsending' hsending
  cases hstate : k.state <;> simp [LinkContext.beginning, hnone]

/-- A link with the frame in transmission closed (R146). -/
def LinkContext.closed (l : LinkContext) : LinkContext := { l with sent := l.sent ++ l.closing, transmission := none }

theorem LinkContext.judged_eq (l : LinkContext) : l.judged = l.closed.judgeInterval := by
  rw [LinkContext.judged, LinkContext.closeFrame_eq]
  rfl

/-- The judgement in each state, on the link with its frame closed. -/
theorem LinkContext.judged_up {l : LinkContext} (h : l.state = .up) : l.judged = l.closed.judgeUp := by
  have hup : l.closed.state = .up := h
  rw [l.judged_eq]
  simp [LinkContext.judgeInterval, hup]

theorem LinkContext.judged_up_lost {l : LinkContext} (h : l.state = .up) (hloses : l.losesUp) :
    l.judged = l.closed.counted.toRecovering := (LinkContext.judged_up h).trans (LinkContext.judgeUp_recovering hloses)

theorem LinkContext.judged_up_stays {l : LinkContext} (h : l.state = .up) (hloses : ¬l.losesUp) :
    l.judged = l.closed.counted := (LinkContext.judged_up h).trans (LinkContext.judgeUp_stays hloses)

theorem LinkContext.judged_training {l : LinkContext} (h : l.state = .training ∨ l.state = .recovering) :
    l.judged = if l.interval.trainedSeen = true ∧ 2 ≤ l.trainedRun then l.closed.toUp else { l.closed with
      trainedRun := if l.interval.trainedSeen then l.trainedRun + 1 else 0
      windowCount := l.windowCount + 1
      state := if 31 ≤ l.windowCount then .halted else l.state } := by
  have hstate : l.closed.judgeInterval = l.closed.judgeTraining := by
    have ht : l.closed.state = .training ∨ l.closed.state = .recovering := h
    obtain ht | ht := ht <;> simp [LinkContext.judgeInterval, ht]
  rw [l.judged_eq, hstate]
  split
  · rename_i hseen
    exact LinkContext.judgeTraining_up hseen
  · rename_i hseen
    exact LinkContext.judgeTraining_not hseen

theorem LinkContext.judged_resetting {l : LinkContext} {n : Nat} (h : l.state = .resetting) (hn : l.resetCount = some n) :
    l.judged = if 2 ≤ n then { l.closed with resetCount := some (n - 1) } else l.closed.toTraining := by
  have hr : l.closed.state = .resetting := h
  have hc : l.closed.resetCount = some n := hn
  rw [l.judged_eq]
  simp [LinkContext.judgeInterval, hr, LinkContext.judgeReset, hc]

theorem LinkContext.judged_idle {l : LinkContext} (h : l.state = .down ∨ l.state = .halted) : l.judged = l.closed := by
  rw [l.judged_eq]
  have hs : l.closed.state = .down ∨ l.closed.state = .halted := h
  obtain hs | hs := hs <;> simp [LinkContext.judgeInterval, hs]

/-- What no judgement writes (R151). -/
theorem LinkContext.judged_rest (l : LinkContext) :
    (l.judged.config, l.judged.tone, l.judged.lastReturn, l.judged.pendingChoice, l.judged.errorTotal, l.judged.badChoices) =
      (l.config, l.tone, l.lastReturn, l.pendingChoice, l.errorTotal, l.badChoices) := by
  have hconfig : l.closed.judgeInterval.config = l.config := l.closed.judgeInterval_keeps.2.1
  have hrest := l.closed.judgeInterval_rest
  simp only [Prod.mk.injEq] at hrest ⊢
  rw [l.judged_eq]
  exact ⟨hconfig, hrest⟩

/-- Only a judgement in UP counts a missing return or a recovery (R155, R156). -/
theorem LinkContext.judged_totals {l : LinkContext} (h : l.state ≠ .up) :
    l.judged.missingTotal = l.missingTotal ∧ l.judged.recoveries = l.recoveries := by
  rw [l.judged_eq]
  obtain ⟨-, -, he⟩ | ⟨-, -, he⟩ | ⟨hup, -⟩ | ⟨hup, -⟩ | ⟨-, n, -, -, he⟩ | ⟨-, n, -, -, he⟩ | ⟨-, he⟩ := l.closed.judgeInterval_cases
  · rw [he]; exact ⟨rfl, rfl⟩
  · rw [he]; exact ⟨rfl, rfl⟩
  · exact absurd hup h
  · exact absurd hup h
  · rw [he]; exact ⟨rfl, rfl⟩
  · rw [he]; exact ⟨rfl, rfl⟩
  · rw [he]; exact ⟨rfl, rfl⟩

/-- With the runs in range an UP link is lost exactly by the fourth missing return or the third interval over the threshold (R155, R156). -/
theorem LinkContext.losesUp_iff {l : LinkContext} (herrors : l.config.threshold ≠ 0 ∨ l.errorRun ≤ 2) :
    l.losesUp ↔ (l.interval.returned = false ∧ 3 ≤ l.missingRun) ∨
      (l.config.threshold ≠ 0 ∧ l.interval.overThreshold = true ∧ 2 ≤ l.errorRun) := by
  have hmissing : 4 ≤ (if l.interval.returned then 0 else l.missingRun + 1) ↔ l.interval.returned = false ∧ 3 ≤ l.missingRun := by
    cases l.interval.returned <;> simp
  have hover : 3 ≤ (if l.config.threshold = 0 then l.errorRun else if l.interval.overThreshold then l.errorRun + 1 else 0) ↔
      l.config.threshold ≠ 0 ∧ l.interval.overThreshold = true ∧ 2 ≤ l.errorRun := by
    by_cases h0 : l.config.threshold = 0
    · simp only [h0, if_true, ne_eq, not_true_eq_false, false_and, iff_false]
      obtain h | h := herrors
      · exact absurd h0 h
      · omega
    · cases l.interval.overThreshold <;> simp [h0]
  unfold LinkContext.losesUp
  rw [hmissing, hover]

theorem LinkContext.losesUp_of {l : LinkContext} (h : (l.interval.returned = false ∧ 3 ≤ l.missingRun) ∨
    (l.config.threshold ≠ 0 ∧ l.interval.overThreshold = true ∧ 2 ≤ l.errorRun)) : l.losesUp := by
  obtain ⟨hr, hm⟩ | ⟨h0, ho, he⟩ := h
  · exact .inl (by simp [hr, hm])
  · exact .inr (by simp [h0, ho, he])

/-- The state a link's frame start leaves, by the state it finds (R152). -/
theorem LinkContext.frameStart_state (l : LinkContext) (n : Nat) :
    (l.frameStart n).state = l.state ∨
    ((l.state = .training ∨ l.state = .recovering) ∧ ((l.frameStart n).state = .up ∨ (l.frameStart n).state = .halted)) ∨
    (l.state = .up ∧ (l.frameStart n).state = .recovering) ∨ (l.state = .resetting ∧ (l.frameStart n).state = .training) := by
  have hframe : (l.frameStart n).state = l.closed.judgeInterval.state := by rw [l.frameStart_eq, l.judged_eq]
  rw [hframe]
  obtain ⟨hs, -, he⟩ | ⟨hs, -, he⟩ | ⟨hs, -, he⟩ | ⟨hs, -, he⟩ | ⟨hs, n, -, -, he⟩ | ⟨hs, n, -, -, he⟩ | ⟨-, he⟩ := l.closed.judgeInterval_cases
  · exact .inr (.inl ⟨hs, .inl (by rw [he]; rfl)⟩)
  · rw [he]
    dsimp only
    split
    · exact .inr (.inl ⟨hs, .inr rfl⟩)
    · exact .inl rfl
  · exact .inr (.inr (.inl ⟨hs, by rw [he]; rfl⟩))
  · exact .inl (by rw [he]; rfl)
  · exact .inl (by rw [he]; rfl)
  · exact .inr (.inr (.inr ⟨hs, by rw [he]; rfl⟩))
  · exact .inl (by rw [he]; rfl)

end Sys2Proof.Machine

namespace Sys2Proof.Safety
open Sys2Proof.Machine

/-- Settles O48: what is closed and begun around the judgement, and the judgement by the state. -/
theorem linkFrameStartJudgesTheInterval : Obligations.LinkFrameStartJudgesTheInterval := by
  rintro l frame t rfl
  rw [l.frameStart_eq]
  refine ⟨rfl, rfl, l.judged_rest, LinkContext.judged_totals, fun hstate => ?_, fun hstate => ?_, fun hstate => ?_, ?_, rfl, rfl,
    fun hstate => ?_⟩
  · have hjudged := LinkContext.judged_training hstate
    by_cases hseen : l.interval.trainedSeen = true ∧ 2 ≤ l.trainedRun
    · rw [if_pos hseen] at hjudged
      rw [hjudged]
      exact ⟨rfl, fun _ => ⟨rfl, rfl, rfl, rfl, rfl⟩, fun hnot => absurd hseen hnot⟩
    · rw [if_neg hseen] at hjudged
      rw [hjudged]
      exact ⟨rfl, fun h => absurd h hseen, fun _ => ⟨rfl, rfl, rfl, rfl, rfl⟩⟩
  · refine ⟨fun n hn htwo => ?_, fun hone => ?_⟩
    · have hjudged := LinkContext.judged_resetting hstate hn
      rw [if_pos htwo] at hjudged
      rw [hjudged]
      exact ⟨hstate, rfl, rfl, rfl, rfl, rfl⟩
    · have hjudged := LinkContext.judged_resetting hstate hone
      rw [if_neg (by decide)] at hjudged
      rw [hjudged]
      exact ⟨rfl, rfl, rfl, rfl, rfl, rfl⟩
  · have hjudged := LinkContext.judged_idle hstate
    have hup : l.closed.state ≠ .up := by
      have hsame : l.closed.state = l.state := rfl
      obtain h | h := hstate <;> simp [hsame, h]
    rw [hjudged]
    simp only [hup, if_false]
    rfl
  · rfl
  · refine ⟨fun hlost => ?_, fun hmissing hrun herror hover => ?_, ?_⟩
    · rw [LinkContext.judged_up_lost hstate (LinkContext.losesUp_of hlost)]
      exact ⟨rfl, rfl, rfl, rfl⟩
    · have hstays : ¬l.losesUp := fun h => ((LinkContext.losesUp_iff (.inr herror)).1 h).elim hmissing hover
      rw [LinkContext.judged_up_stays hstate hstays]
      exact ⟨hstate, rfl, rfl, fun h0 => if_neg h0⟩
    · by_cases hloses : l.losesUp
      · rw [LinkContext.judged_up_lost hstate hloses]; rfl
      · rw [LinkContext.judged_up_stays hstate hloses]; rfl

end Sys2Proof.Safety
end


section
/-! SUPPORT. Training and the table of a link's moves (R152 to R154), status returns (R148, R149, R189), the hand-over of a line (R109, R145), and the
commands on a screen (R159 to R163). -/

namespace Sys2Proof.Machine
open Sys2Proof.Safety

/-! ### Training -/

/-- An interval of a link in TRAINING: UP after a third TRAINED interval in a row, HALTED at the 32nd interval, and otherwise one more
interval in TRAINING (R153). -/
theorem LinkContext.trainingStep {l t : LinkContext} {r : IntervalRecord} {n : Nat} (hstate : l.state = .training)
    (ht : t = ({ l with interval := r } : LinkContext).frameStart n) :
    (t.state = .up ∧ 2 ≤ l.trainedRun) ∨ (t.state = .halted ∧ 31 ≤ l.windowCount) ∨
      (t.state = .training ∧ l.windowCount < 31 ∧ t.windowCount = l.windowCount + 1 ∧ t.trainedRun ≤ l.trainedRun + 1) := by
  have hjudged := LinkContext.judged_training (l := { l with interval := r }) (.inl hstate)
  rw [LinkContext.frameStart_eq] at ht
  by_cases hseen : r.trainedSeen = true ∧ 2 ≤ l.trainedRun
  · rw [if_pos hseen] at hjudged
    rw [hjudged] at ht
    exact .inl ⟨by rw [ht]; rfl, hseen.2⟩
  · rw [if_neg hseen] at hjudged
    rw [hjudged] at ht
    by_cases hwindow : 31 ≤ l.windowCount
    · exact .inr (.inl ⟨by rw [ht]; exact if_pos hwindow, hwindow⟩)
    · refine .inr (.inr ⟨by rw [ht]; exact (if_neg hwindow).trans hstate, by omega, by rw [ht], ?_⟩)
      rw [ht]
      dsimp only
      split <;> omega

/-- While a run stays in TRAINING its window counts the frame starts, and its trained run is no longer (R153). -/
theorem training_counts {run : Nat → LinkContext} {records : Nat → IntervalRecord} {frames : Nat → Nat} (hrun : (run 0).trainedRun = 0)
    (hwindow : (run 0).windowCount = 0) (hstep : ∀ n, run (n + 1) = ({ run n with interval := records n } : LinkContext).frameStart (frames n))
    {n : Nat} (hstate : ∀ k, k ≤ n → (run k).state = .training) : (run n).windowCount = n ∧ (run n).trainedRun ≤ n := by
  induction n with
  | zero => exact ⟨hwindow, hrun.le⟩
  | succ n ih =>
    obtain ⟨hw, hr⟩ := ih fun k hk => hstate k (Nat.le_succ_of_le hk)
    obtain ⟨hup, -⟩ | ⟨hhalted, -⟩ | ⟨-, -, hw', hr'⟩ := LinkContext.trainingStep (hstate n (Nat.le_succ n)) (hstep n)
    · rw [hstate (n + 1) le_rfl] at hup; cases hup
    · rw [hstate (n + 1) le_rfl] at hhalted; cases hhalted
    · exact ⟨by omega, by omega⟩

/-! ### Status returns -/

theorem twoWay_eq_some {α : Type} {v : Byte} {x y a : α} : twoWay v x y = some a ↔ (v = 0 ∧ a = x) ∨ (v = 1 ∧ a = y) := by
  unfold twoWay
  by_cases h0 : v = 0
  · subst h0; simp [eq_comm]
  · by_cases h1 : v = 1
    · subst h1; simp [eq_comm]
    · rw [if_neg h0, if_neg h1]
      exact iff_of_false nofun fun h => h.elim (fun h => h0 h.1) fun h => h1 h.1

theorem decodeChoice_eq_some {v : Byte} {c : Option Nat} :
    decodeChoice v = some c ↔ (v.toNat ≤ 7 ∧ c = some v.toNat) ∨ (v = 255 ∧ c = none) := by
  unfold decodeChoice
  by_cases h7 : v.toNat ≤ 7
  · have hne : v ≠ 255 := by rintro rfl; exact absurd h7 (by decide)
    rw [if_pos h7]
    exact ⟨fun h => .inl ⟨h7, (Option.some.inj h).symm⟩, fun h => h.elim (fun h => h.2 ▸ rfl) fun h => absurd h.1 hne⟩
  · by_cases h255 : v = 255
    · rw [if_neg h7, if_pos h255]
      exact ⟨fun h => .inr ⟨h255, (Option.some.inj h).symm⟩, fun h => h.elim (fun h => absurd h.1 h7) fun h => h.2 ▸ rfl⟩
    · rw [if_neg h7, if_neg h255]
      exact iff_of_false nofun fun h => h.elim (fun h => h7 h.1) fun h => h255 h.1

/-- A sound return of six bytes all of which can be read (R148, R189). -/
theorem decodeReturn_eq_some {sound : Bool} {bytes : List Byte} {r : StatusReturn} :
    decodeReturn sound bytes = some r ↔ sound = true ∧ ∃ p0 p1 a b e c : Byte, bytes = [p0, p1, a, b, e, c] ∧
      r.presented = p0.toNat + 256 * p1.toNat ∧ ((a = 0 ∧ r.receiver = .training) ∨ (a = 1 ∧ r.receiver = .trained)) ∧
      ((b = 0 ∧ r.panel = .ok) ∨ (b = 1 ∧ r.panel = .fault)) ∧ r.errors = e.toNat ∧
      ((c.toNat ≤ 7 ∧ r.choice = some c.toNat) ∨ (c = 255 ∧ r.choice = none)) := by
  simp only [← twoWay_eq_some, ← decodeChoice_eq_some]
  constructor
  · intro h
    unfold decodeReturn at h
    split at h
    · rename_i p0 p1 a b e c
      split at h
      · rename_i x y z ha hb hc
        obtain rfl := Option.some.inj h
        exact ⟨rfl, p0, p1, a, b, e, c, rfl, rfl, ha, hb, rfl, hc⟩
      · cases h
    · cases h
  · rintro ⟨rfl, p0, p1, a, b, e, c, rfl, hp, ha, hb, he, hc⟩
    simp only [decodeReturn, ha, hb, hc, ← hp, ← he]

theorem exec_statusReturn_ignored {s : State} {sc : Screen} {sound : Bool} {bytes : List Byte} (hrun : s.resetLow = false)
    (h : decodeReturn sound bytes = none ∨ (s.link sc).state.takesReturns = false) : exec (.statusReturn sc sound bytes) s = .next s := by
  change execStatusReturn sc sound bytes s = _
  rw [execStatusReturn, whileRunning_of hrun]
  split
  · rfl
  · rename_i r hr
    obtain h | h := h
    · rw [h] at hr; cases hr
    · rw [h]; rfl

theorem exec_statusReturn_taken {s : State} {sc : Screen} {sound : Bool} {bytes : List Byte} {r : StatusReturn} (hrun : s.resetLow = false)
    (hr : decodeReturn sound bytes = some r) (hstate : (s.link sc).state.takesReturns = true) :
    exec (.statusReturn sc sound bytes) s = .next (s.changeLink sc (LinkContext.statusReturn (isRearScreen sc) r)) := by
  change execStatusReturn sc sound bytes s = _
  rw [execStatusReturn, whileRunning_of hrun, hr]
  exact congrArg _ (if_pos hstate)

/-- Changing one link writes that link and the notices (R152). -/
theorem State.changeLink_eq (s : State) (sc : Screen) (f : LinkContext → LinkContext) :
    s.changeLink sc f = { s with links := s.links.set sc (f (s.link sc)), notices := (s.changeLink sc f).notices } := by
  have hlinks : (s.changeLink sc f).links = s.links.set sc (f (s.link sc)) := by
    unfold State.changeLink
    dsimp only
    split
    · rfl
    · rw [State.raise_frame]; rfl
  rw [← hlinks]
  exact s.changeLink_frame sc f

/-! ### The table of the moves -/

/-- Whatever a row does to the state of a link is one of the moves of R152, each by its cause, but for the reset pin. -/
theorem Effect.linkState {s t : State} {c : Instr} (h : Effect s c t) (sc : Screen) (hassert : c ≠ .resetnAssert)
    (hrelease : c ≠ .resetnRelease) :
    (t.link sc).state = (s.link sc).state ∨
    ((s.link sc).state = .down ∧ (t.link sc).state = .training ∧ ∃ x, c = .enableLink x ∧ screenOf x = some sc) ∨
    (isFrameStart c = true ∧ ∃ (l : LinkContext) (n : Nat), l.state = (s.link sc).state ∧ t.link sc = l.frameStart n) ∨
    ((∃ bytes, c = .statusReturn sc true bytes) ∧ (s.link sc).state.takesReturns = true ∧
      ∃ r, t.link sc = (s.link sc).statusReturn (isRearScreen sc) r) ∨
    ((s.link sc).state ≠ .down ∧ (s.link sc).state ≠ .resetting ∧ (t.link sc).state = .resetting ∧
      ∃ x, c = .resetLink x ∧ screenOf x = some sc) ∨
    ((t.link sc).state = .down ∧ ∃ x, c = .disableLink x ∧ screenOf x = some sc) := by
  cases h with
  | resetReleased => exact absurd rfl hrelease
  | resetAsserted => exact absurd rfl hassert
  | @linkEnabled b x hx hstate =>
    rw [State.respond_link, State.changeLink_link]
    by_cases hsc : sc = x
    · subst hsc; exact .inr (.inl ⟨hstate, by rw [if_pos rfl]; rfl, b, rfl, hx⟩)
    · exact .inl (by rw [if_neg hsc])
  | @linkDisabled b x hx hstate =>
    rw [State.respond_link, State.changeLink_link]
    by_cases hsc : sc = x
    · subst hsc; exact .inr (.inr (.inr (.inr (.inr ⟨by rw [if_pos rfl]; rfl, b, rfl, hx⟩))))
    · exact .inl (by rw [if_neg hsc])
  | @linkReset b x hx hdown hresetting =>
    rw [State.respond_link, State.changeLink_link]
    by_cases hsc : sc = x
    · subst hsc; exact .inr (.inr (.inr (.inr (.inl ⟨hdown, hresetting, by rw [if_pos rfl]; rfl, b, rfl, hx⟩))))
    · exact .inl (by rw [if_neg hsc])
  | @domainStarted _ d hc =>
    obtain ⟨k, b, -, hlink⟩ := s.domainStart_link d sc
    rw [hlink]
    split
    · exact .inr (.inr (.inl ⟨hc, { s.link sc with pendingChoice := k, badChoices := b }, _, rfl, rfl⟩))
    · exact .inl rfl
  | @returnTaken x sound bytes r hr hstate =>
    rw [State.changeLink_link]
    by_cases hsc : sc = x
    · subst hsc
      obtain ⟨rfl, -⟩ := decodeReturn_eq_some.1 hr
      exact .inr (.inr (.inr (.inl ⟨⟨bytes, rfl⟩, hstate, r, if_pos rfl⟩)))
    · exact .inl (by rw [if_neg hsc])
  | @lineHanded x m hm =>
    refine .inl ?_
    rw [State.modComposer_link, State.modLink_link]
    split
    · rename_i hsc
      subst hsc
      unfold LinkContext.takeLine
      split
      · split <;> rfl
      · rfl
    · rfl
  | @screenConfigured | @toneStored | @resetRenewed =>
    refine .inl ?_
    rw [State.respond_link, State.modLink_link]
    split
    · rename_i hsc; subst hsc; rfl
    · rfl
  | frameStarted => exact .inl (by rw [State.reportStarts_frame]; simp)
  | unchanged => exact .inl rfl
  | answered => exact .inl rfl
  | opened | amended | freed | retired | armed | freezeRequested | sourceConfigured | sourceRestarted | domainSet | noticeTaken | masked
  | fetched | lineTaken | frameEnded | expired => exact .inl (by simp)

/-- The state a taken return leaves: a panel FAULT halts a link that is TRAINING or RECOVERING and sends one that is UP to RECOVERING (R154,
R157). -/
theorem LinkContext.statusReturn_eq (l : LinkContext) (rear : Bool) (r : StatusReturn) (hstate : l.state.takesReturns = true) :
    l.statusReturn rear r =
      if r.panel = .fault then (if l.state = .up then (l.takeReturn rear r).toRecovering else (l.takeReturn rear r).toHalted)
      else l.takeReturn rear r := by
  unfold LinkContext.statusReturn LinkContext.panelFault
  have hsame : (l.takeReturn rear r).state = l.state := rfl
  rw [hsame]
  cases h : l.state <;> simp [h, LinkState.takesReturns] at hstate ⊢

/-- A return taken, in the terms of R149. -/
theorem LinkContext.takeReturn_eq (l : LinkContext) (rear : Bool) (r : StatusReturn) :
    l.takeReturn rear r = { l with
      lastReturn := some r
      errorTotal := min 4294967295 (l.errorTotal + r.errors)
      pendingChoice := if rear = true ∧ r.choice ≠ none then r.choice else l.pendingChoice
      interval := {
        returned := true
        trainedSeen := l.interval.trainedSeen || decide (r.receiver = .trained)
        overThreshold := l.interval.overThreshold || decide (l.config.threshold ≠ 0 ∧ l.config.threshold < r.errors)
        presented := if l.state = .up then some r.presented else l.interval.presented } } := by
  have hthreshold : (l.config.threshold != 0 && decide (l.config.threshold < r.errors)) =
      decide (l.config.threshold ≠ 0 ∧ l.config.threshold < r.errors) := by
    rw [Bool.eq_iff_iff]
    simp
  simp only [LinkContext.takeReturn, LinkContext.enterReturn, hthreshold, satAdd, Bool.and_eq_true, Option.isSome_iff_ne_none]

end Sys2Proof.Machine

namespace Sys2Proof.Safety
open Sys2Proof.Machine

/-- Settles O49: the first frame start that leaves TRAINING, by the counts until then. -/
theorem trainingEndsWithinItsWindow : Obligations.TrainingEndsWithinItsWindow := by
  rintro l records frames run hstate hrun hwindow rfl hstep
  have counts := fun n h => training_counts (n := n) hrun hwindow hstep h
  have hleaves : ∃ n, (run n).state ≠ .training := by
    by_contra hall
    push Not at hall
    obtain ⟨hw, -⟩ := counts 31 fun k _ => hall k
    obtain ⟨h, -⟩ | ⟨h, -⟩ | ⟨-, h, -⟩ := LinkContext.trainingStep (hall 31) (hstep 31)
    · rw [hall 32] at h; cases h
    · rw [hall 32] at h; cases h
    · omega
  classical
  have hbefore : ∀ k, k < Nat.find hleaves → (run k).state = .training := fun k hk => not_not.1 (Nat.find_min hleaves hk)
  have hfind := Nat.find_spec hleaves
  generalize Nat.find hleaves = n at hbefore hfind
  obtain _ | m := n
  · exact absurd hstate hfind
  obtain ⟨hw, hr⟩ := counts m fun k hk => hbefore k (Nat.lt_succ_of_le hk)
  have hm : m ≤ 31 := by
    obtain _ | k := m
    · omega
    obtain ⟨hw', -⟩ := counts k fun j hj => hbefore j (by omega)
    obtain ⟨h, -⟩ | ⟨h, -⟩ | ⟨-, h, -⟩ := LinkContext.trainingStep (hbefore k (by omega)) (hstep k)
    · rw [hbefore (k + 1) (by omega)] at h; cases h
    · rw [hbefore (k + 1) (by omega)] at h; cases h
    · omega
  obtain ⟨hup, htwo⟩ | ⟨hhalted, hlast⟩ | ⟨hstays, -⟩ := LinkContext.trainingStep (hbefore m (Nat.lt_succ_self m)) (hstep m)
  · exact ⟨fun k hk => hbefore k (by omega), m + 1, by omega, by omega, hbefore, .inl hup, fun h => absurd (hup.symm.trans h) (by simp)⟩
  · exact ⟨fun k hk => hbefore k (by omega), m + 1, by omega, by omega, hbefore, .inr hhalted, fun _ => by omega⟩
  · exact absurd hstays hfind

/-- Settles O50: each kind of effect moves the state as the table gives. -/
theorem linkStateMovesOnlyByItsTable : Obligations.LinkStateMovesOnlyByItsTable := by
  rintro c s t sc hassert hrelease hexec a b rfl rfl
  obtain h | ⟨hdown, htraining, hc⟩ | ⟨hc, l, n, hl, ht⟩ | ⟨hc, htakes, r, ht⟩ | ⟨hdown, hresetting, hstate, hc⟩ | ⟨hdown, hc⟩ :=
    (exec_effect hexec).linkState sc hassert hrelease
  · exact .inl h.symm
  · exact .inr (.inl ⟨hdown, htraining, hc⟩)
  · rw [ht, ← hl]
    obtain h | ⟨ha, hb⟩ | ⟨ha, hb⟩ | ⟨ha, hb⟩ := l.frameStart_state n
    · exact .inl h.symm
    · exact .inr (.inr (.inl ⟨ha, hb, hc⟩))
    · exact .inr (.inr (.inr (.inr (.inl ⟨ha, hb, .inl hc⟩))))
    · exact .inr (.inr (.inr (.inr (.inr (.inr (.inl ⟨ha, hb, hc⟩))))))
  · rw [ht, LinkContext.statusReturn_eq _ _ _ htakes]
    split
    · split
      · rename_i hup
        exact .inr (.inr (.inr (.inr (.inl ⟨hup, rfl, .inr hc⟩))))
      · rename_i hup
        have hstate : (s.link sc).state = .training ∨ (s.link sc).state = .recovering := by
          cases h : (s.link sc).state <;> simp_all [LinkState.takesReturns]
        exact .inr (.inr (.inr (.inl ⟨hstate, rfl, hc⟩)))
    · exact .inl rfl
  · exact .inr (.inr (.inr (.inr (.inr (.inl ⟨hdown, hresetting, hstate, hc⟩)))))
  · exact .inr (.inr (.inr (.inr (.inr (.inr (.inr ⟨hdown, hc⟩))))))

/-- Settles O47: the return as it is read, ignored, or taken with what its panel condition does. -/
theorem statusReturnIsTakenOrIgnored : Obligations.StatusReturnIsTakenOrIgnored := by
  intro s sc sound bytes hrun
  refine ⟨fun r => decodeReturn_eq_some, fun hignored => exec_statusReturn_ignored hrun ?_, fun r hr hstate => ?_⟩
  · obtain h | h | h | h := hignored
    · exact .inl h
    all_goals exact .inr (by rw [h]; rfl)
  · have htakes : (s.link sc).state.takesReturns = true := by obtain h | h | h := hstate <;> rw [h] <;> rfl
    have hlink : (s.changeLink sc (LinkContext.statusReturn (isRearScreen sc) r)).link sc =
        (s.link sc).statusReturn (isRearScreen sc) r := by rw [State.changeLink_link, if_pos rfl]
    refine ⟨_, exec_statusReturn_taken hrun hr htakes, ?_, ?_⟩
    · rw [hlink]
      exact State.changeLink_eq ..
    · rintro l rfl
      have htaken : (s.link sc).takeReturn (isRearScreen sc) r = _ := LinkContext.takeReturn_eq ..
      rw [hlink, LinkContext.statusReturn_eq _ _ _ htakes, htaken]
      refine ⟨fun hok => by rw [if_neg (by simp [hok])], fun hfault hup => ?_, fun hfault hup => ?_⟩
      · rw [if_pos hfault, if_neg hup]; rfl
      · rw [if_pos hfault, if_pos hup]; rfl

end Sys2Proof.Safety
end


section
/-! SUPPORT. The hand-over of a line (R109, R145), the commands on a screen (R159 to R163), and the tone a frame start takes (R106). -/

namespace Sys2Proof.Machine
open Sys2Proof.Safety

/-! ### The hand-over of a line -/

/-- A link that is not UP, or has no frame in transmission, discards the line (R145). -/
theorem LinkContext.takeLine_discards {l : LinkContext} (h : l.state ≠ .up ∨ l.transmission = none) (m : Composition) (pixels : List Colour) :
    l.takeLine m pixels = l := by
  unfold LinkContext.takeLine
  split
  · rename_i hup hx
    obtain h | h := h
    · exact absurd hup h
    · rw [h] at hx; cases hx
  · rfl

/-- A link that is UP with a frame in transmission sends the line, and a FRAME_TAIL after the last (R145). -/
theorem LinkContext.takeLine_sends {l : LinkContext} {x : Transmission} (hup : l.state = .up) (hx : l.transmission = some x) (m : Composition)
    (pixels : List Colour) :
    l.takeLine m pixels = { l with
      sent := l.sent ++ (.line m.nextLine pixels :: if m.nextLine + 1 < m.height then [] else [.frameTail (x.linesSent + 1)])
      transmission := if m.nextLine + 1 < m.height then some { x with linesSent := x.linesSent + 1 } else none } := by
  unfold LinkContext.takeLine
  rw [hup, hx]
  dsimp only
  split <;> rfl

theorem exec_lineHandover_none {s : State} {sc : Screen} (hrun : s.resetLow = false) (h : (s.composer sc).composition = none) :
    exec (.lineHandover sc) s = .next s := by
  change execLineHandover sc s = _
  rw [execLineHandover, whileRunning_of hrun, h]

theorem exec_lineHandover_some {s : State} {sc : Screen} {m : Composition} (hrun : s.resetLow = false)
    (h : (s.composer sc).composition = some m) :
    exec (.lineHandover sc) s = .next ((s.modLink sc fun l => l.takeLine m (composeLine s (s.composer sc) m)).modComposer sc fun k =>
      { k with composition := m.advance }) := by
  change execLineHandover sc s = _
  rw [execLineHandover, whileRunning_of hrun, h]

/-! ### The commands on a screen -/

/-- The ranges of a screen's settings (R162): a threshold of one byte is always in range. -/
theorem ScreenConfig.firstFault (w h : Half) (d e : Byte) :
    firstFalse (ScreenConfig.inRange ⟨w.toNat, h.toNat, d.toNat, e.toNat⟩) =
      if ¬(320 ≤ w.toNat ∧ w.toNat ≤ 2560) then some 0
      else if ¬(240 ≤ h.toNat ∧ h.toNat ≤ 1600) then some 1
      else if ¬(d.toNat = 8 ∨ d.toNat = 10) then some 2
      else none := by
  have hthreshold : decide (e.toNat ≤ 255) = true := decide_eq_true (by omega)
  have hwidth : (320 ≤ w.toNat && w.toNat ≤ 2560) = decide (320 ≤ w.toNat ∧ w.toNat ≤ 2560) := by simp
  have hheight : (240 ≤ h.toNat && h.toNat ≤ 1600) = decide (240 ≤ h.toNat ∧ h.toNat ≤ 1600) := by simp
  have hdepth : (decide (d.toNat = 8) || decide (d.toNat = 10)) = decide (d.toNat = 8 ∨ d.toNat = 10) := by simp
  unfold ScreenConfig.inRange
  rw [hthreshold, hwidth, hheight, hdepth]
  by_cases hw : 320 ≤ w.toNat ∧ w.toNat ≤ 2560
  · by_cases hh : 240 ≤ h.toNat ∧ h.toNat ≤ 1600
    · by_cases hd : d.toNat = 8 ∨ d.toNat = 10 <;> simp [hw, hh, hd, firstFalse]
    · simp [hw, hh, firstFalse]
  · simp [hw, firstFalse]

theorem exec_setScreen {s : State} {b : Byte} {sc : Screen} (hrun : s.resetLow = false) (hsc : screenOf b = some sc) (w h : Half) (d e : Byte) :
    exec (.setScreen b w h d e) s = .next (State.configureScreen ⟨w.toNat, h.toNat, d.toNat, e.toNat⟩ sc s) :=
  onScreenNamed_of hrun hsc _

theorem State.configureScreen_fault {s : State} {sc : Screen} {c : ScreenConfig} {n : Nat} (h : firstFalse c.inRange = some n) :
    s.configureScreen c sc = s.respond .badField [BitVec.ofNat 8 n] := by
  unfold State.configureScreen
  rw [h]
  rfl

theorem State.configureScreen_inRange {s : State} {sc : Screen} {c : ScreenConfig} (h : firstFalse c.inRange = none) :
    s.configureScreen c sc =
      if (s.link sc).state ≠ .down then s.respond .wrongState []
      else if s.placementCount sc ≠ 0 then s.respond .screenInUse []
      else (s.modLink sc fun l => { l with config := c }).respond .ok [] := by
  unfold State.configureScreen
  rw [h]
  rfl

/-! ### The tone -/

/-- A composer's frame start writes that composer alone, with the stored tone of its link (R106). -/
theorem State.composerStart_tone (s : State) (sc : Screen) (n : Nat) :
    ((s.composerStart sc n).composer sc).background = (s.link sc).tone.background ∧
      ((s.composerStart sc n).composer sc).gain = (s.link sc).tone.gain := by
  obtain ⟨k, b, -, hlink, -⟩ := s.composerStart_link_cases sc sc n
  rw [State.composerStart_link] at hlink
  have htone : ((((s.applyArmed sc n).takeChoice sc).takeFreezes sc).link sc).tone = (s.link sc).tone := by
    simp only [State.takeFreezes_rest]
    rw [hlink]
  rw [← htone]
  simp [State.composerStart, State.beginComposition, State.takeTone]

theorem State.renumber_composer (s : State) (n : Nat) (l : List Handle) (x : Screen) : (s.renumber n l).composer x = s.composer x := by
  rw [State.renumber_frame]; rfl

theorem State.composerStart_composer_ne (s : State) {sc x : Screen} (n : Nat) (h : x ≠ sc) :
    (s.composerStart sc n).composer x = s.composer x := by
  have happlied : (s.applyArmed sc n).composer x = s.composer x := by
    obtain ⟨-, he⟩ | ⟨t, l, -, -, ht, -, he⟩ := s.applyArmed_eq sc n
    · rw [he]
    · have hfold : t.composer x = s.composer x := by
        rw [ht]
        exact foldl_keeps (P := fun u : State => u.composer x = s.composer x) _ rfl fun u h hu => by rw [State.applyRecord_frame]; exact hu
      rw [he, State.raise_frame]
      simp [h, hfold, State.renumber_composer]
  rw [← happlied]
  simp [State.composerStart, State.beginComposition, State.takeTone, h]

/-- A domain's frame start hands each of its composers the tone its link has stored (R39, R106). -/
theorem State.domainStart_tone (s : State) (sc : Screen) :
    ((s.domainStart (screenDomain sc)).composer sc).background = (s.link sc).tone.background ∧
      ((s.domainStart (screenDomain sc)).composer sc).gain = (s.link sc).tone.gain := by
  have hcomposer : ∀ x, (s.domainStart (screenDomain sc)).composer x =
      (((s.domainWork (screenDomain sc)).composerStart (domainScreens (screenDomain sc)).1 (s.newFrame (screenDomain sc))).composerStart
        (domainScreens (screenDomain sc)).2 (s.newFrame (screenDomain sc))).composer x := by
    intro x
    simp [State.domainStart, State.handFrameStart, State.newFrame]
  rw [hcomposer]
  obtain hfirst | hsecond := screenDomain_eq_iff.1 (rfl : screenDomain sc = screenDomain sc)
  · have hne : sc ≠ (domainScreens (screenDomain sc)).2 := fun he => domainScreens_ne _ (hfirst.symm.trans he)
    rw [State.composerStart_composer_ne _ _ hne, ← hfirst]
    have h := (s.domainWork (screenDomain sc)).composerStart_tone sc (s.newFrame (screenDomain sc))
    simpa using h
  · have hne : sc ≠ (domainScreens (screenDomain sc)).1 := fun he => domainScreens_ne _ (he.symm.trans hsecond)
    obtain ⟨-, -, -, -, hlink⟩ :=
      (s.domainWork (screenDomain sc)).composerStart_link_cases (domainScreens (screenDomain sc)).1 sc (s.newFrame (screenDomain sc))
    have hlink : ((s.domainWork (screenDomain sc)).composerStart (domainScreens (screenDomain sc)).1 (s.newFrame (screenDomain sc))).link sc =
        s.link sc := (hlink hne).trans (by simp)
    have h := ((s.domainWork (screenDomain sc)).composerStart (domainScreens (screenDomain sc)).1
      (s.newFrame (screenDomain sc))).composerStart_tone sc (s.newFrame (screenDomain sc))
    rw [hlink] at h
    rw [← hsecond]
    exact h

theorem LinkContext.frameStart_tone (l : LinkContext) (n : Nat) : (l.frameStart n).tone = l.tone := by
  have h := l.judged_rest
  simp only [Prod.mk.injEq] at h
  rw [l.frameStart_eq]
  exact h.2.1

end Sys2Proof.Machine

namespace Sys2Proof.Safety
open Sys2Proof.Machine

/-- Settles O45: the composer's side and the link's side. -/
theorem lineHandoverSendsTheNextLine : Obligations.LineHandoverSendsTheNextLine := by
  intro s sc hrun
  refine ⟨exec_lineHandover_none hrun, fun m hm => ⟨_, exec_lineHandover_some hrun hm, ?_, fun h => ?_, fun x hup hx => ?_⟩⟩
  · apply State.ext_fields
    case h7 => simp [State.modLink, State.modComposer]
    all_goals rfl
  · simpa using LinkContext.takeLine_discards h m _
  · simpa using LinkContext.takeLine_sends hup hx m _

/-- Settles O20: the settings by the first check that fails, the tone, and the frame start that takes it. -/
theorem screenSettingsAreStored : Obligations.ScreenSettingsAreStored := by
  refine ⟨fun s b hrun hb => ?_, fun s t sc hrun hdue hexec => ?_, fun s b sc hrun hsc => ⟨fun w h d e => ?_, fun c g => ?_⟩⟩
  · have hnone := screenOf_of_ge hb
    exact ⟨fun _ _ _ _ => onScreenNamed_none hrun hnone _, fun _ _ => onScreenNamed_none hrun hnone _⟩
  · obtain rfl := Host.Outcome.next.inj ((exec_domainFrameStart hrun hdue).symm.trans hexec)
    obtain ⟨hbackground, hgain⟩ := s.domainStart_tone sc
    obtain ⟨k, b, -, hlink⟩ := s.domainStart_link (screenDomain sc) sc
    exact ⟨hbackground, hgain, by rw [hlink, if_pos rfl, LinkContext.frameStart_tone]⟩
  · rw [exec_setScreen hrun hsc]
    have hfault := ScreenConfig.firstFault w h d e
    refine ⟨fun ⟨hw, hh, hd⟩ => ?_, fun hw => ?_, fun hw hh => ?_, fun hw hh hd => ?_⟩
    · rw [if_neg (not_not.2 hw), if_neg (not_not.2 hh), if_neg (not_not.2 hd)] at hfault
      rw [State.configureScreen_inRange hfault]
      refine ⟨fun hdown => ?_, fun hstate => by rw [if_pos hstate]⟩
      rw [if_neg (not_not.2 hdown)]
      refine ⟨fun hnone => ?_, fun ⟨x, p, hp, hpsc⟩ => ?_⟩
      · rw [if_neg (not_not.2 (State.placementCount_eq_zero.2 hnone))]
        rfl
      · rw [if_pos fun h0 => State.placementCount_eq_zero.1 h0 x p hp hpsc]
    · rw [State.configureScreen_fault (hfault.trans (if_pos hw))]; rfl
    · rw [if_neg (not_not.2 hw)] at hfault
      rw [State.configureScreen_fault (hfault.trans (if_pos hh))]; rfl
    · rw [if_neg (not_not.2 hw), if_neg (not_not.2 hh)] at hfault
      rw [State.configureScreen_fault (hfault.trans (if_pos hd))]; rfl
  · exact onScreenNamed_of hrun hsc _

/-- Settles O21: each command by the state of the link. -/
theorem linkCommandsMoveTheLink : Obligations.LinkCommandsMoveTheLink := by
  have henable : ∀ s b, exec (.enableLink b) s = onScreenNamed b State.enableLink s := fun _ _ => rfl
  have hdisable : ∀ s b, exec (.disableLink b) s = onScreenNamed b State.disableLink s := fun _ _ => rfl
  have hreset : ∀ s b, exec (.resetLink b) s = onScreenNamed b State.resetLink s := fun _ _ => rfl
  refine ⟨fun s b hrun hb => ?_, fun s b sc hrun hsc => ?_⟩
  · have hnone := screenOf_of_ge hb
    exact ⟨onScreenNamed_none hrun hnone _, onScreenNamed_none hrun hnone _, onScreenNamed_none hrun hnone _⟩
  · rw [henable, hdisable, hreset, onScreenNamed_of hrun hsc, onScreenNamed_of hrun hsc, onScreenNamed_of hrun hsc]
    unfold State.enableLink State.disableLink
    refine ⟨fun hdown => ?_, fun hdown => ?_⟩
    · rw [if_pos hdown, if_pos hdown]
      refine ⟨⟨_, rfl, ?_⟩, rfl, by simp [State.resetLink, hdown, State.refuse]⟩
      rw [State.changeLink_eq]; rfl
    · rw [if_neg hdown, if_neg hdown]
      refine ⟨rfl, ⟨_, rfl, ?_⟩, fun hresetting => ?_, fun hresetting => ⟨_, rfl, ?_⟩⟩
      · rw [State.changeLink_eq]; rfl
      · have h : s.resetLink sc = (s.modLink sc fun l => { l with resetCount := some 2 }).respond .ok [] := by
          unfold State.resetLink
          rw [hresetting]
        rw [h]; rfl
      · have h : s.resetLink sc = (s.changeLink sc LinkContext.toResetting).respond .ok [] := by
          unfold State.resetLink
          split
          · rename_i h; exact absurd h hdown
          · rename_i h; exact absurd h hresetting
          · rfl
        rw [h, State.changeLink_eq]; rfl

end Sys2Proof.Safety
end


section
/-! SUPPORT. What each operation records in the notice set, key by key: where an occurrence is counted, the masks and the canonical form stay
(R139, R176, R177, R181). -/

namespace Sys2Proof.Safety
open Sys2Proof.Machine

/-! ### One key of the notice set -/

/-- No entry of the set stands under this key. -/
def Silent (s : State) (k : NoticeKey) : Prop := ∀ e ∈ s.notices.entries, e.key ≠ k

/-- From `s` to `t` one occurrence is reported under the key `k` where `p` holds, and none where it does not. -/
structure Noticed (k : NoticeKey) (p : Prop) (s t : State) : Prop where
  masks : t.notices.masks = s.notices.masks
  law : NoticeLaw s → NoticeLaw t
  count : NoticeLaw s → ∀ [Decidable p], noticeCount t k = countAfter s k p
  silent : ¬ p → Silent s k → Silent t k

theorem noticeCount_silent {s : State} {k : NoticeKey} (h : Silent s k) : noticeCount s k = 0 := by
  unfold noticeCount
  rw [List.find?_eq_none.2 (by simpa [Silent] using h)]

theorem countAfter_of_not (s : State) (k : NoticeKey) {p : Prop} [Decidable p] (hp : ¬ p) : countAfter s k p = noticeCount s k :=
  if_neg fun h => hp h.2

theorem countAfter_iff (s : State) (k : NoticeKey) {p q : Prop} [Decidable p] [Decidable q] (h : p ↔ q) : countAfter s k p = countAfter s k q := by
  unfold countAfter
  simp only [h]

theorem countAfter_congr {s t : State} {k : NoticeKey} (hmasks : t.notices.masks = s.notices.masks) (hcount : noticeCount t k = noticeCount s k)
    (p : Prop) [Decidable p] : countAfter t k p = countAfter s k p := by
  unfold countAfter
  rw [hmasks, hcount]

theorem Noticed.congr {k : NoticeKey} {p q : Prop} {s t : State} (h : Noticed k p s t) (hpq : p ↔ q) : Noticed k q s t := by
  rwa [← propext hpq]

theorem Noticed.trans {k : NoticeKey} {p q : Prop} {s t u : State} (h : Noticed k p s t) (h' : Noticed k q t u) (hpq : ¬ (p ∧ q)) :
    Noticed k (p ∨ q) s u where
  masks := h'.masks.trans h.masks
  law hs := h'.law (h.law hs)
  count hs _ := by
    classical
    rw [h'.count (h.law hs)]
    by_cases hq : q
    · have hp : ¬ p := fun hp => hpq ⟨hp, hq⟩
      have hsame : noticeCount t k = noticeCount s k := by rw [h.count hs, countAfter_of_not s k hp]
      rw [countAfter_congr h.masks hsame]
      exact countAfter_iff s k (by simp [hq])
    · rw [countAfter_of_not t k hq, h.count hs]
      exact countAfter_iff s k (by simp [hq])
  silent hn hs := h'.silent (fun hq => hn (.inr hq)) (h.silent (fun hp => hn (.inl hp)) hs)

theorem Noticed.then {k : NoticeKey} {p : Prop} {s t u : State} (h : Noticed k p s t) (h' : Noticed k False t u) : Noticed k p s u :=
  (h.trans h' And.right).congr (by simp)

theorem Noticed.after {k : NoticeKey} {p : Prop} {s t u : State} (h : Noticed k False s t) (h' : Noticed k p t u) : Noticed k p s u :=
  (h.trans h' And.left).congr (by simp)

theorem noticed_of_notices (k : NoticeKey) {s t : State} (h : t.notices = s.notices) : Noticed k False s t where
  masks := by rw [h]
  law := (noticeLaw_congr h).2
  count _ _ := by rw [countAfter_of_not s k id, noticeCount_eq, noticeCount_eq, h]
  silent _ := by unfold Silent; rw [h]; exact id

theorem noticed_refl (k : NoticeKey) (s : State) : Noticed k False s s := noticed_of_notices k rfl

theorem silent_raise {s : State} {k j : NoticeKey} (hs : Silent s k) (hkj : k ≠ j) : Silent (s.raise j) k := by
  unfold Silent
  rw [State.raise_notices]
  split
  · exact hs
  · exact recordNotice_forall hs hkj.symm fun _ h => h

theorem noticed_raise (s : State) (k j : NoticeKey) : Noticed k (k = j) s (s.raise j) where
  masks := s.raise_masks j
  law hs := noticeLaw_raise hs j
  count hs _ := by
    rw [noticeCount_raise hs]
    split
    · rename_i hk; subst hk; exact countAfter_iff s k (by simp)
    · rename_i hk; rw [countAfter_of_not s k hk]
  silent hk hs := silent_raise hs hk

/-- The entries under a record's own view keys (R139, R181). -/
def NoticeKey.OfRecord (k : NoticeKey) (h : Handle) : Prop := k = .view h ∨ k = .safetyView h

theorem NoticeKey.OfRecord.unique {k : NoticeKey} {h j : Handle} (hh : NoticeKey.OfRecord k h) (hj : NoticeKey.OfRecord k j) : j = h := by
  rcases hh with rfl | rfl <;> rcases hj with hj | hj <;> cases hj <;> rfl

theorem silent_withdrawViews (s : State) {k : NoticeKey} {h : Handle} (hk : NoticeKey.OfRecord k h) : Silent (s.withdrawViews h) k := by
  intro e he
  simp only [State.withdrawViews_notices, List.mem_filter, Bool.and_eq_true, bne_iff_ne] at he
  rcases hk with rfl | rfl
  · exact he.2.1
  · exact he.2.2

theorem noticed_withdrawViews (s : State) {k : NoticeKey} {h : Handle} (hk : ¬ NoticeKey.OfRecord k h) :
    Noticed k False s (s.withdrawViews h) where
  masks := rfl
  law hs := noticeLaw_filter hs _ rfl
  count _ _ := by
    rw [countAfter_of_not s k id, noticeCount_eq, noticeCount_eq]
    unfold countIn
    rw [State.withdrawViews_notices, List.find?_filter]
    have hsame : ∀ e : NoticeEntry,
        decide ((e.key != .view h && e.key != .safetyView h) = true ∧ decide (e.key = k) = true) = decide (e.key = k) := by
      intro e
      by_cases he : e.key = k
      · subst he
        simpa [NoticeKey.OfRecord] using hk
      · simp [he]
    simp only [hsame]
  silent _ hs e he := hs e (by
    simp only [State.withdrawViews_notices] at he
    exact (List.mem_filter.1 he).1)

theorem noticed_foldl {α : Type} {k : NoticeKey} {f : State → α → State} (hf : ∀ s a, Noticed k False s (f s a)) (l : List α) (s : State) :
    Noticed k False s (l.foldl f s) := by
  induction l generalizing s with
  | nil => exact noticed_refl k s
  | cons a l ih => exact (hf s a).then (ih _)

/-! ### Application -/

theorem noticed_setLatch (k : NoticeKey) (s : State) (h : Handle) (r : Option SlotRef) : Noticed k False s (s.setLatch h r) :=
  noticed_of_notices k (by simp)

theorem noticed_freeRecord (s : State) {k : NoticeKey} {h : Handle} (hk : ¬ NoticeKey.OfRecord k h) : Noticed k False s (s.freeRecord h) :=
  ((noticed_setLatch k s h none).then (noticed_withdrawViews _ hk)).then (noticed_of_notices k (State.setBody_notices ..))

theorem silent_freeRecord (s : State) {k : NoticeKey} {h : Handle} (hk : NoticeKey.OfRecord k h) : Silent (s.freeRecord h) k :=
  (noticed_of_notices k (s := (s.setLatch h none).withdrawViews h) (t := s.freeRecord h) (by simp [State.freeRecord])).silent id
    (silent_withdrawViews _ hk)

/-- Application raises nothing for a record by itself, and withdraws the view entries of one that becomes FREE alone (R42, R181). -/
theorem noticed_applyRecord (n : Nat) {s : State} {k : NoticeKey} {h : Handle}
    (hk : NoticeKey.OfRecord k h → ∀ p, s.placement h = some p → p.retireStaged = false) : Noticed k False s (State.applyRecord n s h) := by
  cases hp : s.placement h with
  | none => simpa [State.applyRecord, hp] using noticed_refl k s
  | some p =>
    cases hr : p.retireStaged with
    | true =>
      simp only [State.applyRecord, hp, hr, if_true]
      exact noticed_freeRecord s fun ho => absurd (hk ho p hp) (by simp [hr])
    | false =>
      apply noticed_of_notices
      simp only [State.applyRecord, hp, hr, Bool.false_eq_true, if_false]
      split
      · simp
      · split <;> simp

theorem noticed_applyRecords (n : Nat) {k : NoticeKey} {l : List Handle} (hl : l.Nodup) {s : State}
    (hk : ∀ h ∈ l, NoticeKey.OfRecord k h → ∀ p, s.placement h = some p → p.retireStaged = false) :
    Noticed k False s (l.foldl (State.applyRecord n) s) := by
  induction l generalizing s with
  | nil => exact noticed_refl k s
  | cons a l ih =>
    obtain ⟨ha, hl⟩ := List.nodup_cons.1 hl
    refine (noticed_applyRecord n (hk a (List.mem_cons_self ..))).then (ih hl fun h hh ho p hp => ?_)
    have hne : h ≠ a := fun e => ha (e ▸ hh)
    rw [State.applyRecord_placement, if_neg hne] at hp
    exact hk h (List.mem_cons_of_mem _ hh) ho p hp

/-- A record whose retirement is applied leaves no view entry (R42, R181). -/
theorem silent_applyRecords (n : Nat) {k : NoticeKey} {h : Handle} (hk : NoticeKey.OfRecord k h) {l : List Handle} (hl : l.Nodup)
    (hh : h ∈ l) {s : State} {p : Placement} (hp : s.placement h = some p) (hr : p.retireStaged = true) :
    Silent (l.foldl (State.applyRecord n) s) k := by
  induction l generalizing s with
  | nil => exact absurd hh (List.not_mem_nil)
  | cons a l ih =>
    obtain ⟨ha, htail⟩ := List.nodup_cons.1 hl
    by_cases he : h = a
    · subst he
      have hfree : State.applyRecord n s h = s.freeRecord h := by simp [State.applyRecord, hp, hr]
      rw [List.foldl_cons, hfree]
      exact (noticed_applyRecords n htail fun j hj ho => absurd (by rwa [hk.unique ho] at hj) ha).silent id (silent_freeRecord s hk)
    · refine ih htail ((List.mem_cons.1 hh).resolve_left he) ?_
      rw [State.applyRecord_placement, if_neg he, hp]

theorem noticed_applyArmed (s : State) (sc : Screen) (n : Nat) {k : NoticeKey}
    (hk : ∀ h p, NoticeKey.OfRecord k h → s.placement h = some p → p.screen = sc → p.armed = true → p.retireStaged = false) :
    Noticed k (k = .applied sc ∧ s.handlesOn sc Placement.armed ≠ []) s (s.applyArmed sc n) := by
  cases ha : s.handlesOn sc Placement.armed with
  | nil =>
    have hsame : s.applyArmed sc n = s := by simp [State.applyArmed, ha]
    rw [hsame]
    exact (noticed_refl k s).congr (by simp)
  | cons a l =>
    have hnodup : (a :: l).Nodup := ha ▸ (s.handlesOn_sorted sc _).imp fun h => ne_of_lt h
    have hfold : Noticed k False s ((a :: l).foldl (State.applyRecord n) s) := by
      refine noticed_applyRecords n hnodup fun h hh ho p hp => ?_
      rw [← ha] at hh
      obtain ⟨p', hp', hsc, harm⟩ := State.mem_handlesOn.1 hh
      rw [hp] at hp'
      cases hp'
      exact hk h p ho hp hsc harm
    simp only [State.applyArmed, ha]
    refine ((hfold.then (noticed_of_notices k ?_)).after (noticed_raise _ k (.applied sc))).congr (by simp)
    rw [State.modComposer_notices, State.renumber_frame]

theorem silent_applyArmed (s : State) (n : Nat) {k : NoticeKey} {h : Handle} (hk : NoticeKey.OfRecord k h) {p : Placement}
    (hp : s.placement h = some p) (harm : p.armed = true) (hr : p.retireStaged = true) : Silent (s.applyArmed p.screen n) k := by
  have hmem : h ∈ s.handlesOn p.screen Placement.armed := State.mem_handlesOn.2 ⟨p, hp, rfl, harm⟩
  cases ha : s.handlesOn p.screen Placement.armed with
  | nil => rw [ha] at hmem; exact absurd hmem List.not_mem_nil
  | cons a l =>
    have hnodup : (a :: l).Nodup := ha ▸ (s.handlesOn_sorted p.screen _).imp fun h => ne_of_lt h
    simp only [State.applyArmed, ha]
    refine silent_raise ((noticed_of_notices k ?_).silent id (silent_applyRecords n hk hnodup (ha ▸ hmem) hp hr)) ?_
    · rw [State.modComposer_notices, State.renumber_frame]
    · rcases hk with rfl | rfl <;> simp

/-! ### Passenger choices -/

theorem noticed_applyChoice (s : State) (k : NoticeKey) (sc : Screen) (h : Handle) (m : Image) (i : InputId) :
    Noticed k (k = .passengerChoice sc) s (s.applyChoice sc h m i) := by
  unfold State.applyChoice
  refine (noticed_of_notices k ?_).after (noticed_raise _ k _)
  split <;> simp

theorem noticed_takeChoice (s : State) (sc : Screen) {k : NoticeKey} (hk : k ≠ .passengerChoice sc) : Noticed k False s (s.takeChoice sc) := by
  unfold State.takeChoice
  dsimp only
  repeat' split
  · exact noticed_refl k s
  · exact (noticed_of_notices k (by simp)).then ((noticed_applyChoice _ k sc _ _ _).congr (by simp [hk]))
  · exact noticed_of_notices k (by simp)
  · exact noticed_refl k s

/-! ### View decisions -/

/-- The key under which the view decision of a record raises an occurrence, none where it raises none (R139). -/
def State.decisionNotice (s : State) (h : Handle) : Option NoticeKey :=
  (s.placement h).bind fun p => p.committed.bind fun m => viewNotice h p (viewDecision p m s.answer).view

theorem viewNotice_ofRecord {h : Handle} {p : Placement} {v : View} {k : NoticeKey} (hk : viewNotice h p v = some k) :
    NoticeKey.OfRecord k h := by
  unfold viewNotice at hk
  repeat' split at hk
  all_goals cases hk
  · exact .inr rfl
  · exact .inl rfl

theorem decisionNotice_ofRecord {s : State} {h : Handle} {k : NoticeKey} (hk : State.decisionNotice s h = some k) : NoticeKey.OfRecord k h := by
  unfold State.decisionNotice at hk
  obtain ⟨p, -, hk⟩ := Option.bind_eq_some_iff.1 hk
  obtain ⟨m, -, hk⟩ := Option.bind_eq_some_iff.1 hk
  exact viewNotice_ofRecord hk

theorem noticed_raiseSome (s : State) (k : NoticeKey) (o : Option NoticeKey) : Noticed k (o = some k) s (s.raiseSome o) := by
  cases o with
  | none => exact (noticed_refl k _).congr (by simp)
  | some j => exact (noticed_raise _ k j).congr (by simp [eq_comm])

theorem noticed_decideView (s : State) (h : Handle) (k : NoticeKey) :
    Noticed k (State.decisionNotice s h = some k) s (s.decideView h) := by
  cases hp : s.placement h with
  | none => simpa [State.decideView, State.decisionNotice, hp] using noticed_refl k s
  | some p =>
    cases hm : p.committed with
    | none => simpa [State.decideView, State.decisionNotice, hp, hm] using noticed_refl k s
    | some m =>
      have hnotice : State.decisionNotice s h = viewNotice h p (viewDecision p m s.answer).view := by
        simp [State.decisionNotice, hp, hm]
      simp only [State.decideView, hp, hm, State.writeDecision, hnotice]
      have hquiet : ∀ r f, Noticed k False s ((s.setLatch h r).modPlacement h f) := fun r f => noticed_of_notices k (by simp)
      exact (hquiet _ _).after (noticed_raiseSome _ k _)

theorem decideView_decisionNotice (s : State) {h j : Handle} (hj : j ≠ h) :
    State.decisionNotice (s.decideView h) j = State.decisionNotice s j := by
  unfold State.decisionNotice
  rw [State.decideView_placement_ne s hj, State.decideView_answer]

/-- Each LIVE record of the screen that changes its view is noticed once (R139). -/
theorem noticed_decideViews (s : State) (sc : Screen) (k : NoticeKey) :
    Noticed k (∃ h ∈ s.liveList sc, State.decisionNotice s h = some k) s (s.decideViews sc) := by
  have hlist : ∀ (l : List Handle) (t : State), l.Nodup →
      Noticed k (∃ h ∈ l, State.decisionNotice t h = some k) t (l.foldl State.decideView t) := by
    intro l
    induction l with
    | nil => exact fun t _ => (noticed_refl k t).congr (by simp)
    | cons a l ih =>
      intro t hl
      obtain ⟨ha, hl⟩ := List.nodup_cons.1 hl
      have hrest : (∃ h ∈ l, State.decisionNotice (t.decideView a) h = some k) ↔ ∃ h ∈ l, State.decisionNotice t h = some k := by
        refine exists_congr fun h => and_congr_right fun hh => ?_
        rw [decideView_decisionNotice t (ne_of_mem_of_not_mem hh ha)]
      refine ((noticed_decideView t a k).trans ((ih _ hl).congr hrest) ?_).congr (by simp)
      rintro ⟨h1, h, hh, h2⟩
      exact ha ((decisionNotice_ofRecord h1).unique (decisionNotice_ofRecord h2) ▸ hh)
  exact hlist _ s (s.liveList_nodup sc)

end Sys2Proof.Safety
end


section
/-! SUPPORT. Changes of state and their notices (R64, R98, R104, R152): each step of an event that changes a monitor state, a sync state, a mode
state or a link state raises one occurrence of its notice, and no event changes one of them twice. -/

namespace Sys2Proof.Safety
open Sys2Proof.Machine

/-! ### The state a notice is about -/

/-- Do two states agree on the state this notice reports a change of? -/
def SameWatched (s t : State) : NoticeKey → Prop
  | .sourceState i => (t.input i).monitor = (s.input i).monitor
  | .syncState d => (t.domain d).sync = (s.domain d).sync
  | .domainMode d => (t.domain d).mode = (s.domain d).mode
  | .linkState sc => (t.link sc).state = (s.link sc).state
  | _ => True

/-- Is this the notice of a change of state? -/
def NoticeKey.OfState : NoticeKey → Prop
  | .sourceState _ | .syncState _ | .domainMode _ | .linkState _ => True
  | _ => False

/-- The notice is raised once where its state changes, and not where it stays. -/
def Reported (k : NoticeKey) (s t : State) : Prop := Noticed k (¬ SameWatched s t k) s t

theorem sameWatched_of_eq {s t : State} (hinput : ∀ i, (t.input i).monitor = (s.input i).monitor) (hdomain : ∀ d, t.domain d = s.domain d)
    (hlink : ∀ sc, (t.link sc).state = (s.link sc).state) (k : NoticeKey) : SameWatched s t k := by
  cases k <;> simp [SameWatched, hinput, hdomain, hlink]

theorem sameWatched_trans {s t u : State} {k : NoticeKey} (h : SameWatched s t k) : SameWatched s u k ↔ SameWatched t u k := by
  cases k <;> simp_all [SameWatched]

theorem sameWatched_symm {s t : State} {k : NoticeKey} (h : SameWatched s t k) : SameWatched t s k := by
  cases k <;> simp_all [SameWatched]

theorem reported_of_same {s t : State} {k : NoticeKey} (h : SameWatched s t k) (hn : Noticed k False s t) : Reported k s t :=
  hn.congr (by simp [h])

/-- Two steps of which at most one changes the state report it together once. -/
theorem Reported.trans {s t u : State} {k : NoticeKey} (h : Reported k s t) (h' : Reported k t u)
    (hone : SameWatched s t k ∨ SameWatched t u k) : Reported k s u := by
  refine (Noticed.trans h h' fun hb => hone.elim hb.1 hb.2).congr ?_
  rcases hone with hst | htu
  · simp [hst, sameWatched_trans hst]
  · have hback : SameWatched s u k ↔ SameWatched s t k := by
      constructor
      · intro hsu
        exact (sameWatched_trans hsu).2 (sameWatched_symm htu)
      · intro hst
        exact (sameWatched_trans hst).2 htu
    simp [htu, hback]

/-- The form of every reporting step: the change, and the notice `j` where the state it reports is another. -/
theorem reported_raise {s t : State} {k j : NoticeKey} {c : Prop} [Decidable c] (hn : t.notices = s.notices)
    (hj : SameWatched s t j ↔ c) (hk : k ≠ j → SameWatched s t k) (hj' : SameWatched s (t.raise j) k ↔ SameWatched s t k) :
    Reported k s (if c then t else t.raise j) := by
  by_cases hkj : k = j
  · subst hkj
    split
    · rename_i hc
      exact reported_of_same (hj.2 hc) (noticed_of_notices k hn)
    · rename_i hc
      exact ((noticed_of_notices k hn).after (noticed_raise t k k)).congr (by simp [hj', hj, hc])
  · split
    · exact reported_of_same (hk hkj) (noticed_of_notices k hn)
    · exact reported_of_same (hj'.2 (hk hkj)) ((noticed_of_notices k hn).then ((noticed_raise t k j).congr (by simp [hkj])))

theorem sameWatched_raise (s t : State) (j k : NoticeKey) : SameWatched s (t.raise j) k ↔ SameWatched s t k := by
  cases k <;> simp [SameWatched]

/-! ### Monitors and domains -/

theorem modDomain_sameWatched (s : State) {d : Domain} {f : DomainContext → DomainContext} (hsync : (f (s.domain d)).sync = (s.domain d).sync)
    {k : NoticeKey} (hk : k ≠ .domainMode d) : SameWatched s (s.modDomain d f) k := by
  cases k with
  | domainMode e =>
    have he : e ≠ d := fun h => hk (h ▸ rfl)
    simp [SameWatched, he]
  | syncState e =>
    by_cases he : e = d
    · subst he; simp [SameWatched, hsync]
    · simp [SameWatched, he]
  | _ => simp [SameWatched]

/-- Both domains are told, and what one is told changes no state of the other. -/
theorem reported_domains {f : State → Domain → State} (hrep : ∀ s d k, Reported k s (f s d))
    (hsame : ∀ s d k, k ≠ .domainMode d → SameWatched s (f s d) k) (s : State) (k : NoticeKey) : Reported k s (allDomains.foldl f s) := by
  refine (hrep s .front k).trans (hrep _ .rear k) ?_
  by_cases hk : k = .domainMode .front
  · exact .inr (hsame _ _ _ (by simp [hk]))
  · exact .inl (hsame _ _ _ hk)

theorem sameWatched_domains {f : State → Domain → State} (hsame : ∀ s d k, k ≠ .domainMode d → SameWatched s (f s d) k) (s : State)
    {k : NoticeKey} (hk : ∀ d, k ≠ .domainMode d) : SameWatched s (allDomains.foldl f s) k :=
  (sameWatched_trans (hsame s .front k (hk _))).2 (hsame _ .rear k (hk _))

theorem reported_enterHoldover (i : InputId) (s : State) (d : Domain) (k : NoticeKey) : Reported k s (s.enterHoldover i d) := by
  unfold State.enterHoldover
  split
  · rename_i hc
    have hmode : (s.domain d).mode = .locked := by simp only [Bool.and_eq_true, decide_eq_true_eq] at hc; exact hc.2
    have h := reported_raise (s := s) (t := s.modDomain d fun c => { c with mode := .holdover }) (k := k) (j := .domainMode d) (c := False)
      (State.modDomain_notices ..) (by simp [SameWatched, hmode]) (fun hk => modDomain_sameWatched s rfl hk) (sameWatched_raise ..)
    simpa using h
  · exact reported_of_same (sameWatched_of_eq (fun _ => rfl) (fun _ => rfl) (fun _ => rfl) k) (noticed_refl k s)

theorem enterHoldover_sameWatched (i : InputId) (s : State) (d : Domain) (k : NoticeKey) (hk : k ≠ .domainMode d) :
    SameWatched s (s.enterHoldover i d) k := by
  unfold State.enterHoldover
  split
  · exact (sameWatched_raise ..).2 (modDomain_sameWatched s rfl hk)
  · exact sameWatched_of_eq (fun _ => rfl) (fun _ => rfl) (fun _ => rfl) k

theorem modInput_sameWatched (s : State) {i : InputId} (f : InputContext → InputContext) {k : NoticeKey} (hk : k ≠ .sourceState i) :
    SameWatched s (s.modInput i f) k := by
  cases k with
  | sourceState j =>
    have hj : j ≠ i := fun h => hk (h ▸ rfl)
    simp [SameWatched, hj]
  | _ => simp [SameWatched]

theorem modInput_quiet (s : State) {i : InputId} {f : InputContext → InputContext} (hf : (f (s.input i)).monitor = (s.input i).monitor)
    (k : NoticeKey) : SameWatched s (s.modInput i f) k := by
  refine sameWatched_of_eq (fun j => ?_) (fun _ => by simp) (fun _ => by simp) k
  rw [State.modInput_input]
  split
  · rename_i hj; rw [hj, hf]
  · rfl

theorem reported_modInput (s : State) {i : InputId} {f : InputContext → InputContext} (hf : (f (s.input i)).monitor = (s.input i).monitor)
    (k : NoticeKey) : Reported k s (s.modInput i f) :=
  reported_of_same (modInput_quiet s hf k) (noticed_of_notices k (State.modInput_notices ..))

/-- A change of a monitor raises its own notice, and that of each LOCKED domain it sends to HOLDOVER (R64, R95). -/
theorem reported_setMonitor (s : State) (i : InputId) (m : MonitorState) (k : NoticeKey) : Reported k s (s.setMonitor i m) := by
  unfold State.setMonitor
  split
  · exact reported_of_same (sameWatched_of_eq (fun _ => rfl) (fun _ => rfl) (fun _ => rfl) k) (noticed_refl k s)
  · rename_i hne
    have hset := reported_raise (s := s) (t := s.modInput i fun c => { c with monitor := m }) (k := k) (j := .sourceState i) (c := False)
      (State.modInput_notices ..) (by simpa [SameWatched, eq_comm] using hne) (fun hk => modInput_sameWatched s _ hk) (sameWatched_raise ..)
    rw [if_neg id] at hset
    dsimp only
    split
    · refine hset.trans (reported_domains (reported_enterHoldover i) (enterHoldover_sameWatched i) _ k) ?_
      by_cases hk : k = .sourceState i
      · exact .inr (sameWatched_domains (enterHoldover_sameWatched i) _ (by simp [hk]))
      · exact .inl ((sameWatched_raise ..).2 (modInput_sameWatched s _ hk))
    · exact hset

/-- The change of a monitor after its runs are set. -/
theorem reported_setRuns_setMonitor (s : State) (i : InputId) (good bad : Nat) (m : MonitorState) (k : NoticeKey) :
    Reported k s ((s.setRuns i good bad).setMonitor i m) :=
  (reported_modInput s rfl k).trans (reported_setMonitor ..) (.inl (modInput_quiet s rfl k))

theorem reported_setRuns (s : State) (i : InputId) (good bad : Nat) (k : NoticeKey) : Reported k s (s.setRuns i good bad) :=
  reported_modInput s rfl k

theorem reported_refl (s : State) (k : NoticeKey) : Reported k s s :=
  reported_of_same (sameWatched_of_eq (fun _ => rfl) (fun _ => rfl) (fun _ => rfl) k) (noticed_refl k s)

theorem reported_judge (s : State) (i : InputId) (good : Bool) (k : NoticeKey) : Reported k s (s.judge i good) := by
  cases good with
  | true =>
    simp only [State.judge, if_true, State.goodFrame]
    repeat' split
    · exact reported_refl s k
    · exact reported_setRuns_setMonitor ..
    · exact reported_setRuns ..
    · exact reported_setRuns ..
    · exact reported_setRuns_setMonitor ..
    · exact reported_setRuns_setMonitor ..
  | false =>
    have hcount := reported_modInput s (i := i) (f := fun c => { c with badFrames := satSucc 65535 c.badFrames }) rfl k
    have hsame := modInput_quiet s (i := i) (f := fun c => { c with badFrames := satSucc 65535 c.badFrames }) rfl k
    simp only [State.judge, Bool.false_eq_true, if_false, State.badFrame]
    repeat' split
    · exact hcount
    · exact hcount.trans (reported_setRuns ..) (.inl hsame)
    · exact hcount.trans (reported_setRuns_setMonitor ..) (.inl hsame)
    · exact hcount.trans (reported_setRuns ..) (.inl hsame)
    · exact hcount

theorem reported_endFrame (s : State) (i : InputId) (f : OpenFrame) (good : Bool) (k : NoticeKey) : Reported k s (s.endFrame i f good) := by
  have hf : ∀ c : InputContext, ({ (match f.slot with | some k => c.publish k | none => c) with openFrame := none } : InputContext).monitor =
      c.monitor := by
    intro c
    cases f.slot with
    | none => rfl
    | some k => rfl
  exact (reported_judge s i good k).trans (reported_modInput _ (hf _) k) (.inr (modInput_quiet _ (hf _) k))

theorem reported_endEarly (s : State) (i : InputId) (k : NoticeKey) : Reported k s (s.endEarly i) := by
  unfold State.endEarly
  split
  · exact reported_endFrame ..
  · exact reported_refl s k

theorem reported_expire (s : State) (i : InputId) (k : NoticeKey) : Reported k s (s.expire i) := by
  unfold State.expire
  refine Reported.trans ?_ (reported_modInput _ rfl k) (.inr (modInput_quiet _ rfl k))
  split
  · exact reported_endFrame ..
  · exact reported_judge s i false k

theorem reported_restartSource (s : State) (i : InputId) (k : NoticeKey) : Reported k s (s.restartSource i) :=
  (reported_modInput s (InputContext.restart_monitor _) k).trans (reported_setMonitor ..)
    (.inl (modInput_quiet s (InputContext.restart_monitor _) k))

/-! ### FRAME_START -/

theorem reportStart_sameWatched (i : InputId) (s : State) (d : Domain) (k : NoticeKey) (hk : k ≠ .domainMode d) :
    SameWatched s (s.reportStart i d) k := by
  have hrefl := sameWatched_of_eq (s := s) (fun _ => rfl) (fun _ => rfl) (fun _ => rfl) k
  unfold State.reportStart
  split
  · exact hrefl
  · split
    · dsimp only
      split
      · exact modDomain_sameWatched s rfl hk
      · exact (sameWatched_raise ..).2 (modDomain_sameWatched s rfl hk)
    · exact hrefl

theorem reported_reportStart (i : InputId) (s : State) (d : Domain) (k : NoticeKey) : Reported k s (s.reportStart i d) := by
  unfold State.reportStart
  split
  · exact reported_refl s k
  · split
    · exact reported_raise (State.modDomain_notices ..) (by simp [SameWatched, eq_comm]) (fun hk => modDomain_sameWatched s rfl hk)
        (sameWatched_raise ..)
    · exact reported_refl s k

/-- Without a LOCKED monitor a FRAME_START is reported to no domain (R93). -/
theorem reportStarts_notLocked {s : State} {i : InputId} (h : (s.input i).monitor ≠ .locked) : allDomains.foldl (State.reportStart i) s = s := by
  have hone : ∀ d, s.reportStart i d = s := fun d => by unfold State.reportStart; split <;> simp [h]
  simp [allDomains, hone]

theorem beginFrame_monitor (c : InputContext) (now : Time) (tag : Half) (slot : Option SlotIndex) :
    (c.beginFrame now tag slot).monitor = c.monitor := by
  cases slot <;> simp [InputContext.beginFrame, InputContext.allocate]

theorem openInput_sameWatched (s : State) (i : InputId) (tag : Half) (k : NoticeKey) : SameWatched s (s.openInput i tag) k := by
  unfold State.openInput
  dsimp only
  split
  · exact (sameWatched_raise ..).2 (modInput_quiet s (beginFrame_monitor ..) k)
  · exact modInput_quiet s (beginFrame_monitor ..) k

/-- Beginning a frame raises DROP where the store gives no slot, and nothing else (R76). -/
theorem noticed_openInput (s : State) (i : InputId) (tag : Half) (k : NoticeKey) :
    Noticed k (k = .drop i ∧ (s.input i).freeSlot = none) s (s.openInput i tag) := by
  unfold State.openInput
  dsimp only
  cases hslot : (s.input i).freeSlot with
  | none => exact ((noticed_of_notices k (State.modInput_notices ..)).after (noticed_raise _ k (.drop i))).congr (by simp)
  | some x => exact Noticed.congr (p := False) (noticed_of_notices k rfl) (by simp)

theorem reported_firstFrame (s : State) (i : InputId) (k : NoticeKey) : Reported k s (s.firstFrame i) := by
  unfold State.firstFrame
  split
  · exact reported_setRuns_setMonitor ..
  · exact reported_refl s k

theorem endedEarly_monitor (c : InputContext) : c.endedEarly.monitor = c.monitor ∨ c.endedEarly.monitor = .lost := by
  unfold InputContext.endedEarly
  split
  · rw [InputContext.ended_monitor]
    simp only [InputContext.judged, Bool.false_eq_true, if_false, InputContext.badFrame]
    cases hm : c.monitor <;> simp
    split <;> simp
  · exact .inl rfl

theorem endEarly_sameWatched {s : State} {i : InputId} (h : (s.input i).endedEarly.monitor = (s.input i).monitor) (k : NoticeKey) :
    SameWatched s (s.endEarly i) k := by
  refine sameWatched_of_eq (fun j => ?_) (fun d => ?_) (fun sc => by simp) k
  · rw [State.endEarly_input_eq]
    split
    · rename_i hj; rw [h, hj]
    · rfl
  · rw [State.endEarly_domain, h, DomainContext.monitored_same]

/-- A FRAME_START changes the state of a monitor or of a domain once at most: an early end that sends a LOCKED monitor to LOST leaves nothing for
the later steps to change (R54, R59, R93). -/
theorem reported_frameStart (s : State) (i : InputId) (tag : Half) {k : NoticeKey} (hk : NoticeKey.OfState k) :
    Reported k s (allDomains.foldl (State.reportStart i) (((s.endEarly i).openInput i tag).firstFrame i)) := by
  have hopen : Reported k (s.endEarly i) ((s.endEarly i).openInput i tag) :=
    reported_of_same (openInput_sameWatched ..) ((noticed_openInput _ i tag k).congr (by
      cases k <;> simp [NoticeKey.OfState] at hk ⊢))
  have hbegun : Reported k s ((s.endEarly i).openInput i tag) := (reported_endEarly s i k).trans hopen (.inr (openInput_sameWatched ..))
  have hmonitor : (((s.endEarly i).openInput i tag).input i).monitor = (s.input i).endedEarly.monitor := by
    simp [State.endEarly_input_eq, beginFrame_monitor]
  have hsame : ∀ m, m ≠ .lost → (s.input i).endedEarly.monitor = m → SameWatched s ((s.endEarly i).openInput i tag) k := by
    intro m hm he
    have hstay : (s.input i).endedEarly.monitor = (s.input i).monitor := (endedEarly_monitor _).resolve_right (by rw [he]; exact hm)
    exact (sameWatched_trans (endEarly_sameWatched hstay k)).2 (openInput_sameWatched ..)
  by_cases habsent : (s.input i).endedEarly.monitor = .absent
  · have hfirst := hbegun.trans (reported_firstFrame _ i k) (.inl (hsame .absent (by decide) habsent))
    have hacquiring : ((((s.endEarly i).openInput i tag).firstFrame i).input i).monitor ≠ .locked := by
      rw [State.firstFrame_input, if_pos ⟨rfl, by rw [hmonitor, habsent]⟩]
      simp
    rwa [reportStarts_notLocked hacquiring]
  · have hskip : ((s.endEarly i).openInput i tag).firstFrame i = (s.endEarly i).openInput i tag := by
      unfold State.firstFrame
      rw [if_neg (by rw [hmonitor]; exact habsent)]
    rw [hskip]
    by_cases hlocked : (s.input i).endedEarly.monitor = .locked
    · exact hbegun.trans (reported_domains (reported_reportStart i) (reportStart_sameWatched i) _ k)
        (.inl (hsame .locked (by decide) hlocked))
    · rwa [reportStarts_notLocked (by rw [hmonitor]; exact hlocked)]

/-! ### Domain frame starts and links -/

theorem modLink_sameWatched (s : State) {sc : Screen} (f : LinkContext → LinkContext) {k : NoticeKey} (hk : k ≠ .linkState sc) :
    SameWatched s (s.modLink sc f) k := by
  cases k with
  | linkState x =>
    have hx : x ≠ sc := fun h => hk (h ▸ rfl)
    simp [SameWatched, hx]
  | _ => simp [SameWatched]

theorem reported_modLink (s : State) {sc : Screen} {f : LinkContext → LinkContext} (hf : (f (s.link sc)).state = (s.link sc).state)
    (k : NoticeKey) : Reported k s (s.modLink sc f) := by
  refine reported_of_same (sameWatched_of_eq (fun _ => by simp) (fun _ => by simp) (fun x => ?_) k) (noticed_of_notices k rfl)
  rw [State.modLink_link]
  split
  · rename_i hx; rw [hx, hf]
  · rfl

theorem takeLine_linkState (l : LinkContext) (m : Composition) (pixels : List Colour) : (l.takeLine m pixels).state = l.state := by
  unfold LinkContext.takeLine
  split
  · split <;> rfl
  · rfl

theorem reported_changeLink (s : State) (sc : Screen) (f : LinkContext → LinkContext) (k : NoticeKey) : Reported k s (s.changeLink sc f) := by
  unfold State.changeLink
  exact reported_raise (State.modLink_notices ..) Iff.rfl (fun hk => modLink_sameWatched s f hk) (sameWatched_raise ..)

theorem changeLink_sameWatched (s : State) (sc : Screen) (f : LinkContext → LinkContext) {k : NoticeKey} (hk : k ≠ .linkState sc) :
    SameWatched s (s.changeLink sc f) k := by
  unfold State.changeLink
  dsimp only
  split
  · exact modLink_sameWatched s f hk
  · exact (sameWatched_raise ..).2 (modLink_sameWatched s f hk)

theorem reported_takeSettings (s : State) (d : Domain) (k : NoticeKey) : Reported k s (s.takeSettings d) := by
  unfold State.takeSettings
  refine reported_raise (State.modDomain_notices ..) Iff.rfl (fun hk => modDomain_sameWatched s ?_ hk) (sameWatched_raise ..)
  unfold DomainContext.takeSettings
  repeat' split
  all_goals rfl

theorem judgeSync_sameWatched (s : State) (d : Domain) {k : NoticeKey} (hk : k ≠ .syncState d) : SameWatched s (s.judgeSync d) k := by
  cases k with
  | syncState e =>
    have he : e ≠ d := fun h => hk (h ▸ rfl)
    simp [SameWatched, State.judgeSync_domain, he]
  | domainMode e =>
    simp only [SameWatched, State.judgeSync_domain]
    split
    · rename_i h; rw [h]; rfl
    · rfl
  | _ => simp [SameWatched]

theorem reported_judgeSync (s : State) (d : Domain) (k : NoticeKey) : Reported k s (s.judgeSync d) := by
  have hsame : ∀ p q, k ≠ .syncState d → SameWatched s (s.modDomain d (DomainContext.judgeSync p q)) k := by
    intro p q hk
    cases k with
    | syncState e =>
      have he : e ≠ d := fun h => hk (h ▸ rfl)
      simp [SameWatched, he]
    | domainMode e =>
      simp only [SameWatched, State.modDomain_domain]
      split
      · rename_i h; rw [h]; rfl
      · rfl
    | _ => simp [SameWatched]
  unfold State.judgeSync
  exact reported_raise (State.modDomain_notices ..) Iff.rfl (hsame _ _) (sameWatched_raise ..)

theorem modDomain_quiet (s : State) {d : Domain} {f : DomainContext → DomainContext} (hsync : (f (s.domain d)).sync = (s.domain d).sync)
    (hmode : (f (s.domain d)).mode = (s.domain d).mode) (k : NoticeKey) : SameWatched s (s.modDomain d f) k := by
  by_cases hk : k = .domainMode d
  · subst hk; simp [SameWatched, hmode]
  · exact modDomain_sameWatched s hsync hk

theorem advanceFrame_quiet (s : State) (d : Domain) (k : NoticeKey) : SameWatched s (s.advanceFrame d) k := modDomain_quiet s rfl rfl k

theorem schedule_quiet (s : State) (d : Domain) (k : NoticeKey) : SameWatched s (s.schedule d) k := modDomain_quiet s rfl rfl k

theorem reported_domainWork (s : State) (d : Domain) (k : NoticeKey) : Reported k s (s.domainWork d) := by
  have htaken := (reported_takeSettings s d k).trans (reported_of_same (advanceFrame_quiet _ d k) (noticed_of_notices k rfl))
    (.inr (advanceFrame_quiet _ d k))
  refine Reported.trans (htaken.trans (reported_judgeSync _ d k) ?_)
    (reported_of_same (schedule_quiet _ d k) (noticed_of_notices k rfl)) (.inr (schedule_quiet _ d k))
  by_cases hk : k = .syncState d
  · refine .inl ((sameWatched_trans ?_).2 (advanceFrame_quiet _ d k))
    subst hk
    simp only [SameWatched, State.takeSettings_domain, if_true]
    unfold DomainContext.takeSettings
    repeat' split
    all_goals rfl
  · exact .inr (judgeSync_sameWatched _ d hk)

theorem composerStart_sameWatched (s : State) (sc : Screen) (n : Nat) (k : NoticeKey) : SameWatched s (s.composerStart sc n) k := by
  refine sameWatched_of_eq (fun i => ?_) (fun d => by simp) (fun x => ?_) k
  · rw [s.composerStart_sameInputs sc n i]
  · obtain ⟨c, b, -, h, -⟩ := s.composerStart_link_cases sc x n
    rw [h]

/-- A composer's frame start changes no watched state, and reports none (R39). -/
theorem reported_composerStart (s : State) (sc : Screen) (n : Nat) {k : NoticeKey} (hk : NoticeKey.OfState k) : Reported k s (s.composerStart sc n) := by
  have hrecord : ∀ h, ¬ NoticeKey.OfRecord k h := by
    rintro h (rfl | rfl) <;> exact hk
  have happly := (noticed_applyArmed s sc n (k := k) fun h p ho => absurd ho (hrecord h)).congr
    (q := False) (by cases k <;> simp [NoticeKey.OfState] at hk ⊢)
  have hchoice : ∀ t : State, Noticed k False t (t.takeChoice sc) := fun t =>
    noticed_takeChoice t sc (by rintro rfl; exact hk)
  have hdecide : ∀ t : State, Noticed k False t (t.decideViews sc) := fun t => (noticed_decideViews t sc k).congr
    (iff_false_intro fun ⟨h, _, hn⟩ => hrecord h (decisionNotice_ofRecord hn))
  have hfreeze : ∀ t : State, Noticed k False t (t.takeFreezes sc) := fun t => noticed_of_notices k (by simp)
  have htone : ∀ t : State, Noticed k False t (t.takeTone sc) := fun t => noticed_of_notices k (by simp)
  have hbegin : ∀ t : State, Noticed k False t (t.beginComposition sc n) := fun t => noticed_of_notices k (by simp)
  exact reported_of_same (composerStart_sameWatched s sc n k)
    (((((happly.then (hchoice _)).then (hfreeze _)).then (htone _)).then (hdecide _)).then (hbegin _))

/-- A domain frame start changes each state in one of its steps at most: the mode and the sync state in the domain's own work, the state of a
link in that link's work (R90). -/
theorem reported_domainStart (s : State) (d : Domain) {k : NoticeKey} (hk : NoticeKey.OfState k) : Reported k s (s.domainStart d) := by
  have hcomposed : Reported k s (((s.domainWork d).composerStart (domainScreens d).1 ((s.domainWork d).domain d).frameNumber).composerStart
      (domainScreens d).2 ((s.domainWork d).domain d).frameNumber) :=
    ((reported_domainWork s d k).trans (reported_composerStart _ _ _ hk) (.inr (composerStart_sameWatched ..))).trans
      (reported_composerStart _ _ _ hk) (.inr (composerStart_sameWatched ..))
  refine Reported.trans (hcomposed.trans (reported_changeLink ..) ?_) (reported_changeLink ..) ?_
  · by_cases hl : k = .linkState (domainScreens d).1
    · refine .inl ((sameWatched_trans ?_).2 (composerStart_sameWatched ..))
      refine (sameWatched_trans ?_).2 (composerStart_sameWatched ..)
      subst hl
      simp [SameWatched]
    · exact .inr (changeLink_sameWatched _ _ _ hl)
  · by_cases hl : k = .linkState (domainScreens d).2
    · subst hl
      refine .inl ((sameWatched_trans ?_).2 (changeLink_sameWatched _ _ _ (by simpa using (domainScreens_ne d).symm)))
      refine (sameWatched_trans ?_).2 (composerStart_sameWatched ..)
      refine (sameWatched_trans ?_).2 (composerStart_sameWatched ..)
      simp [SameWatched]
    · exact .inr (changeLink_sameWatched _ _ _ hl)

/-! ### Every row -/

theorem Reported.respond {k : NoticeKey} {s t : State} (h : Reported k s t) (code : ResultCode) (body : List Byte) :
    Reported k s (t.respond code body) :=
  have hsame : SameWatched t (t.respond code body) k := sameWatched_of_eq (fun _ => rfl) (fun _ => rfl) (fun _ => rfl) k
  h.trans (reported_of_same hsame (noticed_of_notices k rfl)) (.inr hsame)

/-- A row that writes no notice and no watched state. -/
theorem reported_quiet {s t : State} (k : NoticeKey) (hnotices : t.notices = s.notices)
    (hinput : ∀ i, (t.input i).monitor = (s.input i).monitor) (hdomain : ∀ d, t.domain d = s.domain d)
    (hlink : ∀ sc, (t.link sc).state = (s.link sc).state) : Reported k s t :=
  reported_of_same (sameWatched_of_eq hinput hdomain hlink k) (noticed_of_notices k hnotices)

/-- The rows that read or edit the notice set itself, and those of the reset pin. -/
def WritesNotices : Instr → Prop
  | .takeNotice | .maskNotices .. | .resetnAssert | .resetnRelease => True
  | _ => False

/-- Every other row reports each change of a watched state once (R177). -/
theorem reported_effect {s t : State} {c : Instr} (he : Effect s c t) (hc : ¬ WritesNotices c) {k : NoticeKey} (hk : NoticeKey.OfState k) :
    Reported k s t := by
  cases he with
  | unchanged => exact reported_refl s k
  | answered => exact (reported_refl s k).respond ..
  | opened => exact (reported_quiet k (by simp) (by simp) (by simp) (by simp)).respond ..
  | amended => exact (reported_quiet k (by simp) (by simp) (by simp) (by simp)).respond ..
  | @freed b g u h p body hh hp harmed hnew =>
    refine Reported.respond (reported_of_same (sameWatched_of_eq (fun i => ?_) (by simp) (by simp) k) (noticed_freeRecord s ?_)) ..
    · rw [s.freeRecord_sameInputs h i]
    · rintro (rfl | rfl) <;> exact hk
  | retired => exact (reported_quiet k (by simp) (by simp) (by simp) (by simp)).respond ..
  | armed => exact (reported_quiet k (by simp) (by simp) (by simp) (by simp)).respond ..
  | freezeRequested => exact (reported_quiet k (by simp) (by simp) (by simp) (by simp)).respond ..
  | @sourceConfigured b w h d p t n m i x =>
    exact ((reported_modInput s rfl k).trans (reported_restartSource ..) (.inl (modInput_quiet s rfl k))).respond ..
  | sourceRestarted => exact (reported_restartSource ..).respond ..
  | screenConfigured => exact (reported_modLink s rfl k).respond ..
  | toneStored => exact (reported_modLink s rfl k).respond ..
  | linkEnabled => exact (reported_changeLink ..).respond ..
  | linkDisabled => exact (reported_changeLink ..).respond ..
  | linkReset => exact (reported_changeLink ..).respond ..
  | resetRenewed => exact (reported_modLink s rfl k).respond ..
  | domainSet =>
    exact (reported_of_same (modDomain_quiet s rfl rfl k) (noticed_of_notices k rfl)).respond ..
  | noticeTaken => exact absurd trivial hc
  | masked => exact absurd trivial hc
  | fetched => exact reported_quiet k rfl (fun _ => rfl) (fun _ => rfl) (fun _ => rfl)
  | frameStarted => exact reported_frameStart s _ _ hk
  | lineTaken => exact reported_modInput s (InputContext.takeLine_monitor ..) k
  | frameEnded => exact reported_endFrame ..
  | expired => exact reported_expire ..
  | domainStarted => exact reported_domainStart s _ hk
  | @lineHanded sc m hm =>
    have hline : Reported k s (s.modLink sc fun l => l.takeLine m (composeLine s (s.composer sc) m)) :=
      reported_modLink s (takeLine_linkState ..) k
    refine hline.trans (reported_quiet k rfl (fun _ => rfl) (fun _ => rfl) (fun _ => rfl)) (.inr ?_)
    exact sameWatched_of_eq (fun _ => rfl) (fun _ => rfl) (fun _ => rfl) k
  | returnTaken => exact reported_changeLink ..
  | resetAsserted => exact absurd trivial hc
  | resetReleased => exact absurd trivial hc

/-- Removing the first entry keeps the canonical form of the set (R178). -/
theorem noticeLaw_tail {s t : State} {e : NoticeEntry} {rest : List NoticeEntry} (hs : NoticeLaw s) (he : s.notices.entries = e :: rest)
    (ht : t.notices = { s.notices with entries := rest }) : NoticeLaw t := by
  obtain ⟨hsorted, hentries⟩ := hs
  rw [he] at hsorted hentries
  unfold NoticeLaw
  rw [ht]
  exact ⟨(List.pairwise_cons.1 hsorted).2, fun x hx => hentries x (List.mem_cons_of_mem _ hx)⟩

theorem NoticeMasks.get_set (m : NoticeMasks) (k j : NoticeKind) (v : Bool) : (m.set k v).get j = if j = k then v else m.get j := by
  cases k <;> cases j <;> rfl

/-- One mask applied: a masked kind loses its entries, so that no entry of a masked kind is left (R182). -/
theorem noticeLaw_applyMask {s t : State} (hs : NoticeLaw s) (x : NoticeKind × Bool) (ht : t.notices = s.notices.applyMask x) :
    NoticeLaw t := by
  obtain ⟨hsorted, hentries⟩ := hs
  obtain ⟨kind, mask⟩ := x
  unfold NoticeLaw
  rw [ht]
  cases mask with
  | true =>
    refine ⟨hsorted.sublist (List.filter_sublist.map _), fun e he => ?_⟩
    obtain ⟨hmem, hkind⟩ := List.mem_filter.1 he
    obtain ⟨h1, h255, hmask⟩ := hentries e hmem
    exact ⟨h1, h255, by simpa [NoticeUnit.applyMask, NoticeMasks.get_set, bne_iff_ne.1 hkind] using hmask⟩
  | false =>
    refine ⟨hsorted, fun e he => ?_⟩
    obtain ⟨h1, h255, hmask⟩ := hentries e he
    refine ⟨h1, h255, ?_⟩
    by_cases hkind : e.key.kind = kind <;> simp [NoticeUnit.applyMask, NoticeMasks.get_set, hkind, hmask]

theorem noticeLaw_applyMasks (l : List (NoticeKind × Bool)) {s t : State} (hs : NoticeLaw s)
    (ht : t.notices = l.foldl NoticeUnit.applyMask s.notices) : NoticeLaw t := by
  induction l generalizing s with
  | nil => exact (noticeLaw_congr ht).2 hs
  | cons x l ih => exact ih (s := { s with notices := s.notices.applyMask x }) (noticeLaw_applyMask hs x rfl) ht

/-- Every row keeps the canonical form of the notice set. -/
theorem noticeLaw_effect {s t : State} {c : Instr} (he : Effect s c t) (hs : NoticeLaw s) : NoticeLaw t := by
  by_cases hc : WritesNotices c
  · cases he with
    | unchanged => exact hs
    | answered => exact hs
    | noticeTaken he => exact noticeLaw_tail hs he rfl
    | masked => exact noticeLaw_applyMasks _ hs rfl
    | resetAsserted => exact (noticeLaw_congr s.assertReset_rest.2.2.2.1).2 hs
    | resetReleased => exact (noticeLaw_congr rfl).2 noticeLaw_reset
    | freezeRequested hc' => obtain ⟨b, rfl | rfl⟩ := hc' <;> exact absurd hc id
    | domainStarted hc' => cases c <;> first | exact absurd hc id | exact absurd hc' (by simp [isFrameStart])
    | _ => exact absurd hc id
  · exact (reported_effect he hc (k := .sourceState .a) trivial).law hs

end Sys2Proof.Safety

namespace Sys2Proof.Safety
open Sys2Proof.Machine

/-- Settles O54: an occurrence enters the set in its place by rank, and removals only shorten it. -/
theorem stepKeepsTheNoticeSet : Obligations.StepKeepsTheNoticeSet := by
  intro s t hs hstep
  refine step_keeps (P := NoticeLaw) (fun s t hst h => ?_) (fun s c t he => noticeLaw_effect he) hstep hs
  obtain ⟨a, b, c, rfl⟩ := hst.exists
  exact h

/-- Settles O51: each step of an event reports its own change of state, and the steps of one event change no state twice. -/
theorem everyStateChangeIsNoticed : Obligations.EveryStateChangeIsNoticed := by
  intro c s t htake hmask hassert hrelease hlaw h
  have hc : ¬ WritesNotices c := by
    cases c <;> simp_all [WritesNotices]
  have hrep := fun k hk => reported_effect (exec_effect h) hc (k := k) hk
  refine ⟨(hrep (.sourceState .a) trivial).masks, fun i => ?_, fun d => ?_, fun d => ?_, fun sc => ?_⟩
  · exact Noticed.count (p := (t.input i).monitor ≠ (s.input i).monitor) (hrep (.sourceState i) trivial) hlaw
  · exact Noticed.count (p := (t.domain d).sync ≠ (s.domain d).sync) (hrep (.syncState d) trivial) hlaw
  · exact Noticed.count (p := (t.domain d).mode ≠ (s.domain d).mode) (hrep (.domainMode d) trivial) hlaw
  · exact Noticed.count (p := (t.link sc).state ≠ (s.link sc).state) (hrep (.linkState sc) trivial) hlaw

end Sys2Proof.Safety
end


section
/-! SUPPORT. The commands on an input: what RESET_SOURCE and a passing SET_SOURCE leave, the order in which SET_SOURCE refuses (R67 to R70), and
that no event of one input reaches another (R51). -/

namespace Sys2Proof.Machine
open Sys2Proof.Safety

/-! ### Restarting an input -/

theorem exec_resetSource {s : State} (hrun : s.resetLow = false) {b : Byte} {i : InputId} (hi : inputOf b = some i) :
    exec (.resetSource b) s = .next (s.configured i (s.input i).config) := by
  have hsame : s.modInput i (fun x => { x with config := (s.input i).config }) = s := by
    unfold State.modInput
    have hinput : s.inputs.set i (s.input i) = s.inputs := PerInput.set_get _ i
    exact congrArg (fun x => { s with inputs := x }) hinput
  change execResetSource b s = _
  rw [execResetSource, whileRunning_of hrun, hi, State.configured, hsame]

theorem exec_setSource {s : State} (hrun : s.resetLow = false) {b : Byte} {i : InputId} (hi : inputOf b = some i) (w h : Half) (d : Byte)
    (p t : Half) (n m : Byte) :
    exec (.setSource b w h d p t n m) s =
      .next (s.configureSource i ⟨w.toNat, h.toNat, d.toNat, p.toNat, t.toNat, n.toNat, m.toNat⟩) := by
  change execSetSource b w h d p t n m s = _
  rw [execSetSource, whileRunning_of hrun, hi]

theorem State.configureSource_passed {s : State} {i : InputId} {x : SourceConfig} (hrange : firstFalse x.inRange = none)
    (hlock : s.lockFault i x = none) (hfit : s.geometryFault i x = none) : s.configureSource i x = s.configured i x := by
  unfold State.configureSource
  rw [hrange, hlock, hfit]
  rfl

theorem State.configured_frame (s : State) (i : InputId) (x : SourceConfig) :
    s.configured i x = { s with
      inputs := (s.configured i x).inputs, domains := (s.configured i x).domains, notices := (s.configured i x).notices
      port := { s.port with buffer := some ⟨.ok, []⟩ } } := by
  unfold State.configured
  apply State.ext_fields <;> simp

/-- Without holders the latest slot becomes FREE as its mark is taken, and any other slot is unmarked (R78, R86). -/
theorem Slot.unmark_ite (z : Slot) : z.unmark = if z.latest = true ∧ z.holders = 0 then .empty else { z with latest := false } := by
  rw [Slot.unmark_eq]
  obtain ⟨_, latest, _, _, _, _⟩ := z
  cases latest <;> simp

/-- The lowest handle that passes a test. -/
theorem find?_allHandles {q : Handle → Bool} {k : Handle} (hk : q k = true) (hlow : ∀ y < k, q y = false) : allHandles.find? q = some k := by
  rw [List.find?_eq_some_iff_getElem]
  refine ⟨hk, k.val, by simp [allHandles], by simp [allHandles], fun j hj => ?_⟩
  simpa [allHandles] using hlow ⟨j, hj.trans k.isLt⟩ hj

/-- No record naming the input is outside the geometry proposed for it (R67). -/
theorem State.geometryFault_eq_none {s : State} {i : InputId} {x : SourceConfig}
    (h : ∀ k q, s.placement k = some q → q.names i = true → q.fitsGeometry (s.geometryWith i x) = true) : s.geometryFault i x = none := by
  unfold State.geometryFault State.dependents
  rw [List.find?_eq_none]
  intro k hk
  have hnames := (List.mem_filter.1 hk).2
  cases hp : s.placement k with
  | none => simp
  | some q =>
    rw [hp] at hnames
    simp [h k q hp hnames]

/-- The lowest handle whose record names the input and is outside the geometry proposed for it (R67). -/
theorem State.geometryFault_eq_some {s : State} {i : InputId} {x : SourceConfig} {k : Handle} {q : Placement} (hq : s.placement k = some q)
    (hnames : q.names i = true) (hfit : q.fitsGeometry (s.geometryWith i x) = false)
    (hlow : ∀ y r, y < k → s.placement y = some r → r.names i = true → r.fitsGeometry (s.geometryWith i x) = true) :
    s.geometryFault i x = some k := by
  unfold State.geometryFault State.dependents
  rw [List.find?_filter]
  refine find?_allHandles ?_ fun y hy => ?_
  · simp [hq, hnames, hfit]
  · cases hp : s.placement y with
    | none => simp
    | some r =>
      cases hn : r.names i with
      | false => simp [hn]
      | true => simp [hlow y r hy hp hn]

end Sys2Proof.Machine

namespace Sys2Proof.Safety
open Sys2Proof.Machine

/-- Settles O18: both commands end in the same restart of the input, with the settings of a SET_SOURCE stored first. -/
theorem restartingASourceClearsItsContext : Obligations.RestartingASourceClearsItsContext := by
  intro s b i hrun hi c config hc
  have hexec : exec c s = .next (s.configured i config) := by
    rcases hc with ⟨rfl, rfl⟩ | ⟨w, h, d, p, t, n, m, rfl, rfl, hw, hh, hd, hp, ht, hn, hm, hdelay, hfit⟩
    · exact exec_resetSource hrun hi
    · rw [exec_setSource hrun hi, State.configureSource_passed]
      · rw [firstFalse_eq_none]
        simp [SourceConfig.inRange, hw, hh, hd, hp, ht, hn, hm]
      · rw [State.lockFault_eq_none]
        rintro x t (rfl | hpend) delay hmode
        · exact hdelay x delay (.inl hmode)
        · exact hdelay x delay (.inr ⟨t, hpend, hmode⟩)
      · exact State.geometryFault_eq_none hfit
  refine ⟨_, hexec, fun j hj => ?_, ?_, fun k => ?_, fun d => ?_, s.configured_frame i config⟩
  · rw [State.configured_input, if_neg hj]
  · rw [State.configured_input, if_pos rfl, InputContext.restart_frame]
  · rw [State.configured_input, if_pos rfl]
    change (InputContext.restart _).slots.get k = _
    rw [InputContext.restart_get]
    refine if_congr Iff.rfl rfl ?_
    change ((s.input i).slots.get k).unmark = _
    exact Slot.unmark_ite _
  · rw [State.configured_domain, DomainContext.monitored]
    exact if_congr (by simp [and_comm]) rfl rfl

/-- The first check that fails, by its place in the table (R67). -/
theorem firstFalse_eq_some {l : List Bool} {x : Nat} (hx : l[x]? = some false) (hlow : ∀ y < x, l[y]? = some true) : firstFalse l = some x := by
  induction l generalizing x with
  | nil => simp at hx
  | cons a l ih =>
    cases x with
    | zero =>
      obtain rfl : a = false := by simpa using hx
      rfl
    | succ x =>
      obtain rfl : a = true := by simpa using hlow 0 (Nat.succ_pos x)
      rw [firstFalse, ih (by simpa using hx) fun y hy => by simpa using hlow (y + 1) (Nat.succ_lt_succ hy)]
      rfl

/-- Settles O19: each check is reached once those before it pass, and its fault is the first of its list. -/
theorem setSourceRefusesInOrder : Obligations.SetSourceRefusesInOrder := by
  intro s b w h d p t n m hrun
  refine ⟨fun hb => ⟨?_, ?_⟩, fun i hi => ⟨fun x hx hlow => ?_, fun hrange => ?_⟩⟩
  · change execSetSource b w h d p t n m s = _
    rw [execSetSource, whileRunning_of hrun, hb]
    rfl
  · change execResetSource b s = _
    rw [execResetSource, whileRunning_of hrun, hb]
    rfl
  · rw [exec_setSource hrun hi, State.configureSource, firstFalse_eq_some hx hlow]
    rfl
  · have hpass := firstFalse_eq_none.2 (List.all_eq_true.2 hrange)
    refine ⟨fun x hx => ?_, fun hlock x q hq hnames hfit hlow => ?_⟩
    · rw [exec_setSource hrun hi, State.configureSource, hpass, hx]
      rfl
    · rw [exec_setSource hrun hi, State.configureSource, hpass, hlock, State.geometryFault_eq_some hq hnames hfit hlow]
      rfl

/-! ### One input alone -/

/-- From `s` to `t` at most one input's context is touched, and of the domains the three parts a report sets where they lock to it. -/
structure TouchesInput (i : InputId) (s t : State) : Prop where
  others : ∀ j, j ≠ i → t.input j = s.input j
  domains : ∀ d, t.domain d = { s.domain d with
    mode := (t.domain d).mode, heldPeriod := (t.domain d).heldPeriod, nextStart := (t.domain d).nextStart }
  unlocked : ∀ d, (∀ delay, (s.domain d).settings.mode ≠ .lock i delay) → t.domain d = s.domain d
  rest : t = { s with inputs := t.inputs, domains := t.domains, notices := t.notices, port := t.port }

theorem DomainContext.monitored_unlocked {c : DomainContext} {i : InputId} (h : ∀ delay, c.settings.mode ≠ .lock i delay)
    (a b : MonitorState) : c.monitored i a b = c := by
  refine if_neg fun ⟨_, _, hlock, _⟩ => ?_
  unfold DomainSettings.locksTo at hlock
  cases hm : c.settings.mode with
  | free => simp [hm] at hlock
  | lock j n =>
    obtain rfl : j = i := by simpa [hm] using hlock
    exact h n hm

theorem DomainContext.reported_unlocked {c : DomainContext} {i : InputId} (h : ∀ delay, c.settings.mode ≠ .lock i delay) (x : InputContext)
    (now : Time) : c.reported i x now = c := by
  unfold DomainContext.reported
  cases hm : c.settings.mode with
  | free => rfl
  | lock j n => exact if_neg fun hj : j = i ∧ _ => h n (hj.1 ▸ hm)

theorem TouchesInput.of_monitored {i : InputId} {s t : State} (hothers : ∀ j, j ≠ i → t.input j = s.input j)
    (hdomain : ∀ d, ∃ a b, t.domain d = (s.domain d).monitored i a b)
    (hrest : t = { s with inputs := t.inputs, domains := t.domains, notices := t.notices, port := t.port }) : TouchesInput i s t where
  others := hothers
  domains d := by
    obtain ⟨a, b, h⟩ := hdomain d
    rw [h, DomainContext.monitored_frame]
  unlocked d hd := by
    obtain ⟨a, b, h⟩ := hdomain d
    rw [h, DomainContext.monitored_unlocked hd]
  rest := hrest

theorem TouchesInput.of_domains {i : InputId} {s t : State} (hothers : ∀ j, j ≠ i → t.input j = s.input j) (hdomain : ∀ d, t.domain d = s.domain d)
    (hrest : t = { s with inputs := t.inputs, domains := t.domains, notices := t.notices, port := t.port }) : TouchesInput i s t :=
  .of_monitored hothers (fun d => ⟨.absent, .absent, by rw [hdomain, DomainContext.monitored_same]⟩) hrest

theorem touchesInput_frameStart (s : State) (i : InputId) (tag : Half) :
    TouchesInput i s (allDomains.foldl (State.reportStart i) (((s.endEarly i).openInput i tag).firstFrame i)) where
  others j hj := by rw [State.frameStart_input_eq, if_neg hj]
  domains d := by
    rw [State.frameStart_domain, DomainContext.reported_frame, DomainContext.monitored_frame]
  unlocked d hd := by
    rw [State.frameStart_domain, DomainContext.monitored_unlocked hd, DomainContext.reported_unlocked hd]
  rest := by rw [State.reportStarts_frame]; apply State.ext_fields <;> simp

/-- The rows that reach one input: its packets, its expiry and the two commands that name it. -/
def OfInput (i : InputId) : Instr → Prop
  | .frameStart j _ | .line j _ _ | .frameEnd j | .discardedPacket j | .missingFrameExpiry j => j = i
  | .resetSource b | .setSource b .. => inputOf b = some i
  | _ => False

theorem touchesInput_effect {s t : State} {c : Instr} (he : Effect s c t) {i : InputId} (hc : OfInput i c) : TouchesInput i s t := by
  cases he with
  | unchanged => exact .of_domains (fun _ _ => rfl) (fun _ => rfl) rfl
  | answered => exact .of_domains (fun _ _ => rfl) (fun _ => rfl) rfl
  | @sourceConfigured _ _ _ _ _ _ _ _ j x hj =>
    obtain rfl : j = i := Option.some.inj (hj.symm.trans hc)
    exact .of_monitored (fun k hk => by rw [← State.configured, State.configured_input, if_neg hk])
      (fun d => ⟨_, _, s.configured_domain j x d⟩)
      (by apply State.ext_fields <;> simp)
  | @sourceRestarted _ j hj =>
    obtain rfl : j = i := Option.some.inj (hj.symm.trans hc)
    refine .of_monitored (fun k hk => ?_) (fun d => ⟨_, _, s.restartSource_domain j d⟩) ?_
    · rw [State.respond_input, State.restartSource_input, if_neg hk]
    · apply State.ext_fields <;> simp
  | @frameStarted j tag =>
    obtain rfl : j = i := hc
    exact touchesInput_frameStart s j tag
  | @lineTaken j =>
    obtain rfl : j = i := hc
    exact .of_domains (fun k hk => by simp [hk]) (fun _ => rfl) rfl
  | @frameEnded j f =>
    obtain rfl : j = i := hc
    exact .of_monitored (fun k hk => by rw [State.endFrame_input_eq, if_neg hk]) (fun d => ⟨_, _, s.endFrame_domain ..⟩)
      (by apply State.ext_fields <;> simp)
  | @expired j =>
    obtain rfl : j = i := hc
    exact .of_monitored (fun k hk => by rw [State.expire_input_eq, if_neg hk]) (fun d => ⟨_, _, s.expire_domain ..⟩)
      (by apply State.ext_fields <;> simp)
  | freezeRequested hc' => obtain ⟨b, rfl | rfl⟩ := hc' <;> exact absurd hc id
  | domainStarted hc' => cases c <;> first | exact absurd hc id | exact absurd hc' (by simp [isFrameStart])
  | _ => exact absurd hc id

/-- Settles O52: every event of an input reaches that input's context, and the domains by their reports alone. -/
theorem inputEventsTouchOneInput : Obligations.InputEventsTouchOneInput := by
  intro c s t i hc h
  have hof : OfInput i c := by
    rcases hc with ⟨_, rfl⟩ | ⟨_, _, rfl⟩ | rfl | rfl | rfl | ⟨_, rfl, hb⟩ | ⟨_, _, _, _, _, _, _, _, rfl, hb⟩
    all_goals first | rfl | exact hb
  obtain ⟨hothers, hdomains, hunlocked, hrest⟩ := touchesInput_effect (exec_effect h) hof
  exact ⟨hothers, hdomains, hunlocked, hrest⟩

end Sys2Proof.Safety
end


section
/-! SUPPORT. The packets of the picture input protocol and the missing-frame timer (R53 to R63): FRAME_START, LINE, the end of a frame and an
expiry, each by what it does to the input's context. -/

namespace Sys2Proof.Machine
open Sys2Proof.Safety

/-! ### FRAME_START -/

theorem exec_frameStart {s : State} (hrun : s.resetLow = false) (i : InputId) (tag : Half) :
    exec (.frameStart i tag) s =
      .next (allDomains.foldl (State.reportStart i) (((s.endEarly i).openInput i tag).firstFrame i)) := by
  change execFrameStart i tag s = _
  rw [execFrameStart, whileRunning_of hrun]

theorem DomainContext.reported_notLocked {x : InputContext} (h : x.monitor ≠ .locked) (c : DomainContext) (i : InputId) (now : Time) :
    c.reported i x now = c := by
  unfold DomainContext.reported
  split
  · rfl
  · exact if_neg fun hj => h hj.2

theorem State.endEarly_closed {s : State} {i : InputId} (h : (s.input i).openFrame = none) : s.endEarly i = s := by
  simp [State.endEarly, h]

theorem InputContext.endedEarly_closed {c : InputContext} (h : c.openFrame = none) : c.endedEarly = c := by
  simp [InputContext.endedEarly, h]

theorem InputContext.firstFrame_eq (c : InputContext) :
    c.firstFrame = { c with
      monitor := if c.monitor = .absent then .acquiring else c.monitor, goodRun := if c.monitor = .absent then 0 else c.goodRun
      badRun := if c.monitor = .absent then 0 else c.badRun } := by
  unfold InputContext.firstFrame
  split <;> simp

/-- Steps 2 to 8 of R54, part by part. -/
theorem InputContext.begun_eq (c : InputContext) (now : Time) (tag : Half) (slot : Option SlotIndex) :
    (c.beginFrame now tag slot).firstFrame = { c with
      frameNumber := nextFrameNumber c.frameNumber
      measuredPeriod := if c.monitor = .locked ∧ c.previousStart ≠ none then c.previousStart.map fun p => elapsed p now else c.measuredPeriod
      timestamp := now, previousStart := some now, senderTag := tag
      openFrame := some ⟨slot, [], false, periodVerdict c.config (c.previousStart.map fun p => elapsed p now)⟩
      timer := some (firstExpiry c.config now)
      dropped := if slot = none then satSucc 65535 c.dropped else c.dropped
      monitor := if c.monitor = .absent then .acquiring else c.monitor, goodRun := if c.monitor = .absent then 0 else c.goodRun
      badRun := if c.monitor = .absent then 0 else c.badRun
      slots := (c.beginFrame now tag slot).slots } := by
  rw [InputContext.firstFrame_eq]
  cases slot <;> cases hp : c.previousStart <;> simp [InputContext.beginFrame, InputContext.allocate, hp]

/-- The verdict of R55 by its two bounds. -/
theorem periodVerdict_some (c : SourceConfig) (n : Nat) :
    periodVerdict c (some n) = if c.period - c.tolerance ≤ n ∧ n ≤ c.period + c.tolerance then .met else .missed := by
  unfold periodVerdict
  refine if_congr ?_ rfl rfl
  rw [Nat.sub_le_iff_le_add]

/-- The drop of a frame without a slot is noticed once by the whole of a FRAME_START (R76). -/
theorem noticed_frameStart_drop {s : State} {i : InputId} (hf : (s.input i).openFrame = none) (tag : Half) :
    Noticed (.drop i) ((s.input i).freeSlot = none) s
      (allDomains.foldl (State.reportStart i) (((s.endEarly i).openInput i tag).firstFrame i)) := by
  have hquiet : ∀ {t u : State}, Reported (.drop i) t u → Noticed (.drop i) False t u := fun h =>
    Noticed.congr h (by simp [SameWatched])
  rw [State.endEarly_closed hf]
  refine ((((noticed_openInput s i tag (.drop i)).then (hquiet (reported_firstFrame _ i _))).then
    (hquiet (reported_domains (reported_reportStart i) (reportStart_sameWatched i) _ _)))).congr (by simp)

/-! ### LINE, the end of a frame and the expiry -/

theorem exec_discardedPacket (s : State) (i : InputId) : exec (.discardedPacket i) s = .next s := by
  change execDiscardedPacket i s = _
  rw [execDiscardedPacket, whileRunning_eq, ite_self]

theorem exec_line {s : State} (hrun : s.resetLow = false) (i : InputId) (index : Half) (field : PixelField) :
    exec (.line i index field) s = .next { s with inputs := s.inputs.set i ((s.input i).takeLine index.toNat field) } := by
  change execLine i index field s = _
  rw [execLine, whileRunning_of hrun]
  rfl

theorem exec_line_closed {s : State} {i : InputId} (hf : (s.input i).openFrame = none) (index : Half) (field : PixelField) :
    exec (.line i index field) s = .next s := by
  change execLine i index field s = _
  have hsame : s.modInput i (fun c => c.takeLine index.toNat field) = s := by
    have hcontext : s.modInput i (fun c => c.takeLine index.toNat field) = { s with inputs := s.inputs.set i (s.input i) } :=
      congrArg (fun x => { s with inputs := s.inputs.set i x }) (InputContext.takeLine_closed hf ..)
    rw [hcontext]
    exact congrArg (fun x => { s with inputs := x }) (PerInput.set_get s.inputs i)
  rw [execLine, whileRunning_eq, hsame, ite_self]

theorem exec_frameEnd_closed {s : State} {i : InputId} (hf : (s.input i).openFrame = none) : exec (.frameEnd i) s = .next s := by
  change execFrameEnd i s = _
  rw [execFrameEnd, whileRunning_eq, hf, ite_self]

theorem exec_missingFrameExpiry {s : State} (hrun : s.resetLow = false) (i : InputId) :
    exec (.missingFrameExpiry i) s = .next (if (s.input i).timer = some s.timeBase then s.expire i else s) := by
  change execMissingFrameExpiry i s = _
  rw [execMissingFrameExpiry, whileRunning_of hrun]
  simp [InputContext.expiryDue]

/-- An expiry in the input's context, with the frame it ends, if one is open (R59, R61). -/
theorem InputContext.expired_eq (c : InputContext) (now : Time) :
    c.expired now = { c.judged false with
      openFrame := none, timer := some (later now c.config.period), slots := (c.expired now).slots } := by
  unfold InputContext.expired
  cases hf : c.openFrame with
  | none =>
    have hopen : (c.judged false).openFrame = none := by rw [InputContext.judged_frame, hf]
    have hbad : c.badFrame = c.judged false := rfl
    rw [hbad]
    exact congrArg (fun o => { c.judged false with openFrame := o, timer := some (later now c.config.period) }) hopen
  | some f =>
    exact congrArg (fun x : InputContext => { x with timer := some (later now c.config.period), slots := (c.ended f false).slots })
      (c.ended_eq f false)

theorem InputContext.expired_slots (c : InputContext) (now : Time) :
    (c.expired now).slots = (match c.openFrame with | some f => (c.ended f false).slots | none => c.slots) := by
  unfold InputContext.expired
  cases hf : c.openFrame with
  | none =>
    have hbad : c.badFrame = c.judged false := rfl
    dsimp only
    rw [hbad, InputContext.judged_frame]
  | some f => rfl

theorem InputContext.judged_badFrames (c : InputContext) : (c.judged false).badFrames = satSucc 65535 c.badFrames := by
  simp only [InputContext.judged, Bool.false_eq_true, if_false, InputContext.badFrame]
  repeat' split
  all_goals rfl

end Sys2Proof.Machine

namespace Sys2Proof.Safety
open Sys2Proof.Machine

/-- Settles O27: a frame still open is ended first; then the nine steps of R54 begin the new one in the input's context. -/
theorem frameStartOpensAFrame : Obligations.FrameStartOpensAFrame := by
  intro s i tag hrun
  refine ⟨fun f hf => ?_, ?_⟩
  · have hearly : s.endEarly i = s.endFrame i f false := by simp [State.endEarly, hf]
    have hclosed : ((s.endFrame i f false).input i).openFrame = none := by
      rw [State.endFrame_input_eq, if_pos rfl, InputContext.ended_openFrame]
    rw [exec_frameStart hrun, exec_frameStart (by simpa using hrun), State.endEarly_closed hclosed, hearly]
  · rintro hf c d slot rfl hd hslot
    obtain rfl : slot = (s.input i).freeSlot := hslot
    have hinput : ∀ j, (allDomains.foldl (State.reportStart i) (((s.endEarly i).openInput i tag).firstFrame i)).input j =
        if j = i then ((s.input i).beginFrame s.timeBase tag (s.input i).freeSlot).firstFrame else s.input j := by
      intro j
      rw [State.frameStart_input_eq, InputContext.frameStarted, InputContext.endedEarly_closed hf]
    refine ⟨_, exec_frameStart hrun i tag, ?_, fun k => ?_, fun hlaw => (noticed_frameStart_drop hf tag).count hlaw, fun j hj => ?_, ?_⟩
    · rw [hinput, if_pos rfl, InputContext.begun_eq]
      subst hd
      cases hp : (s.input i).previousStart <;> simp [periodVerdict_some, nextFrameNumber, firstExpiry, later, satSucc, elapsed]
      rfl
    · rw [hinput, if_pos rfl, InputContext.begun_eq]
      exact (InputContext.beginFrame_get ..).trans rfl
    · rw [hinput, if_neg hj]
    · rw [State.reportStarts_frame]
      apply State.ext_fields <;> simp

/-- Settles O28: the report of a FRAME_START reaches the domain that its input, LOCKED, locks. -/
theorem lockInputSchedulesTheDomain : Obligations.LockInputSchedulesTheDomain := by
  intro s t i tag d hrun hf h
  obtain rfl := Host.Outcome.next.inj ((exec_frameStart hrun i tag).symm.trans h)
  have hclosed := InputContext.endedEarly_closed hf
  rw [State.frameStart_domain, hclosed, DomainContext.monitored_same]
  refine ⟨fun delay p hmode hlocked hp => ?_, ?_⟩
  · rw [InputContext.frameStarted, hclosed, InputContext.begun_eq]
    simp [DomainContext.reported, hmode, hlocked, hp, later, clampPeriod, elapsed]
  · rintro (hmode | hlocked)
    · rw [DomainContext.reported_unlocked hmode]
    · rw [DomainContext.reported_notLocked]
      rw [InputContext.frameStarted_monitor, hclosed]
      split
      · simp
      · exact hlocked

/-- The slot of the open frame has the configured geometry and the lines received (R52, R75, R77). -/
theorem openFrameLawful_slot {c : InputContext} (h : openFrameLawful c = true) {f : OpenFrame} (hf : c.openFrame = some f) {k : SlotIndex}
    (hk : f.slot = some k) :
    (c.slots.get k).geometry = some (c.config.width, c.config.height) ∧ (c.slots.get k).lines.map Prod.fst = f.lines := by
  unfold openFrameLawful at h
  simp only [hf, hk, Bool.and_eq_true, decide_eq_true_eq] at h
  exact h.2

/-- Settles O29: a LINE is tested against the open frame, and stored in its slot where it passes. -/
theorem lineIsStoredOrDiscarded : Obligations.LineIsStoredOrDiscarded := by
  intro s i index field
  refine ⟨exec_discardedPacket s i, fun hf => ⟨exec_line_closed hf index field, exec_frameEnd_closed hf⟩, fun f hrun hf => ⟨fun hbad => ?_, ?_⟩⟩
  · rw [exec_line hrun, InputContext.takeLine_discarded hf]
    rcases hbad with h | rfl | ⟨px, rfl, h⟩ | h
    · cases field <;> simp [acceptedLine, Nat.not_lt.2 h]
    · rfl
    · simp [acceptedLine, h]
    · cases field <;> simp [acceptedLine, h]
  · rintro px rfl hn hw hnew hlaw
    have hpx : acceptedLine (s.input i).config f index.toNat (.whole px) = some (px.map (expandPixel (s.input i).config.depth)) :=
      if_pos ⟨hn, hw, hnew⟩
    obtain ⟨hopen, hcanonical⟩ := lineLaw_iff.1 hlaw i
    have hinput : ({ s with inputs := s.inputs.set i ((s.input i).takeLine index.toNat (.whole px)) } : State).input i =
        (s.input i).takeLine index.toNat (.whole px) := (PerInput.get_set ..).trans (if_pos rfl)
    refine ⟨_, insertLine f.lines index.toNat, exec_line hrun i index _, ?_, fun n => mem_insertLine, fun k column line => ?_, fun k => ?_,
      fun k hk => ?_⟩
    all_goals rw [hinput, InputContext.takeLine_accepted hf hpx]
    · rw [InputContext.storedIn_get]
      by_cases hk : f.slot = some k
      · obtain ⟨hgeometry, hlines⟩ := openFrameLawful_slot hopen hf hk
        rw [if_pos hk, read_store hgeometry hn (by simpa using hw) (hlines ▸ hnew)]
        simp only [hk, true_and, List.getElem?_map]
        rfl
      · simp [hk]
    · rw [InputContext.storedIn_get]
      split <;> rfl
    · rw [InputContext.storedIn_get, if_neg hk]

/-- Settles O30: the two rows of the monitor's table, state by state. -/
theorem monitorCountsGoodAndBadFrames : Obligations.MonitorCountsGoodAndBadFrames := by
  rintro s i c g b rfl rfl rfl
  rw [State.judge_input_eq, State.judge_input_eq, if_pos rfl, if_pos rfl]
  generalize s.input i = c
  have hgood : c.judged true = c.goodFrame := rfl
  have hbad : c.judged false = c.badFrame := rfl
  refine ⟨?_, ?_, fun h => ?_, fun h => ?_, fun h => ?_⟩
  · rw [hgood, InputContext.goodFrame]
    cases h : c.monitor <;> dsimp only <;> (repeat' split) <;> simp_all
  · rw [hbad, InputContext.badFrame]
    cases h : c.monitor <;> dsimp only <;> (repeat' split) <;> simp_all [satSucc]
  · rw [hgood, hbad, InputContext.goodFrame, InputContext.badFrame, h]
    refine ⟨?_, by simp⟩
    dsimp only
    split <;> simp
  · rw [hgood, hbad, InputContext.goodFrame, InputContext.badFrame, h]
    refine ⟨by simp, ?_⟩
    dsimp only
    split <;> simp
  · rw [hgood, hbad, InputContext.goodFrame, InputContext.badFrame, h]
    refine ⟨?_, by simp⟩
    dsimp only
    split <;> simp

/-- Settles O32: an expiry counts one bad frame, which is the open frame's own where one is open. -/
theorem expiryCountsOneBadFrame : Obligations.ExpiryCountsOneBadFrame := by
  intro s i hrun
  have hexec := exec_missingFrameExpiry hrun i
  refine ⟨fun h => by rw [hexec, if_neg h], fun h => ⟨s.expire i, by rw [hexec, if_pos h], ?_, ?_, fun hslot => ?_, fun k hk => ?_, fun j hj => ?_, s.expire_frame i⟩⟩
  · rw [State.expire_input_eq, if_pos rfl, State.judge_input_eq, if_pos rfl]
    exact InputContext.expired_eq ..
  · rw [State.expire_input_eq, if_pos rfl, InputContext.expired_eq]
    exact InputContext.judged_badFrames _
  · rw [State.expire_input_eq, if_pos rfl, InputContext.expired_slots]
    cases hf : (s.input i).openFrame with
    | none => rfl
    | some f =>
      have hnone : f.slot = none := by simpa [hf] using hslot
      refine PerSlot.ext_get fun k => ?_
      rw [InputContext.ended_get, if_pos hnone]
  · rw [State.expire_input_eq, if_pos rfl, InputContext.expired_slots]
    cases hf : (s.input i).openFrame with
    | none => simp [hf] at hk
    | some f =>
      have hsome : f.slot = some k := by simpa [hf] using hk
      rw [InputContext.ended_get, if_neg (by simp [hsome]), if_pos hsome]
      exact ⟨rfl, rfl⟩
  · rw [State.expire_input_eq, if_neg hj]

end Sys2Proof.Safety
end


section
/-! SUPPORT. The domain frame start (R90 to R104): the domain's own context, the sync state over a run of intervals, what a frame start leaves of
the other domain, and the two rows that name a frame start by what it does to a link (R153, R161). -/

namespace Sys2Proof.Machine
open Sys2Proof.Safety

/-! ### The sync state over a run of intervals -/

theorem intervalVerdict_agree {p q : Summary} :
    intervalVerdict p q = .agree ↔ p.up = true ∧ q.up = true ∧ ∃ n, p.presented = some n ∧ q.presented = some n := by
  unfold intervalVerdict
  cases p.up <;> cases q.up <;> cases p.presented <;> cases q.presented <;> simp [eq_comm]

theorem intervalVerdict_disagree {p q : Summary} :
    intervalVerdict p q = .disagree ↔
      p.up = true ∧ q.up = true ∧ ∃ m n, p.presented = some m ∧ q.presented = some n ∧ m ≠ n := by
  unfold intervalVerdict
  cases p.up <;> cases q.up <;> cases p.presented <;> cases q.presented <;> simp

/-- Two UP screens' sync state after an interval, by the verdict (R103). -/
theorem nextSync_up {p q : Summary} (hp : p.up = true) (hq : q.up = true) (sync : SyncState) (run : Nat) :
    nextSync sync run p q =
      match sync, intervalVerdict p q with
      | .unsynced, .agree => (.synced, run)
      | .unsynced, _ => (.unsynced, run)
      | .synced, .disagree => (.syncLost, 0)
      | .synced, _ => (.synced, run)
      | .syncLost, .agree => if 3 ≤ run + 1 then (.synced, 0) else (.syncLost, run + 1)
      | .syncLost, _ => (.syncLost, 0) := by
  unfold nextSync
  rw [hp, hq]
  rfl

/-- The number of agreeing intervals in a row at the end of a list. -/
def agreeingEnd (l : List (Summary × Summary)) : Nat := (l.reverse.takeWhile fun e => intervalVerdict e.1 e.2 = .agree).length

theorem agreeingEnd_append (l : List (Summary × Summary)) (e : Summary × Summary) :
    agreeingEnd (l ++ [e]) = if intervalVerdict e.1 e.2 = .agree then agreeingEnd l + 1 else 0 := by
  unfold agreeingEnd
  by_cases he : intervalVerdict e.1 e.2 = .agree <;> simp [he]

theorem two_le_agreeingEnd {l : List (Summary × Summary)} :
    2 ≤ agreeingEnd l ↔ ∃ l₁ a b, l = l₁ ++ [a, b] ∧ intervalVerdict a.1 a.2 = .agree ∧ intervalVerdict b.1 b.2 = .agree := by
  induction l using List.reverseRecOn with
  | nil => simp [agreeingEnd]
  | append_singleton l b _ =>
    rw [agreeingEnd_append]
    induction l using List.reverseRecOn with
    | nil =>
      have hone : (if intervalVerdict b.1 b.2 = .agree then agreeingEnd [] + 1 else 0) < 2 := by split <;> simp [agreeingEnd]
      refine ⟨fun h => absurd h (not_le.2 hone), ?_⟩
      rintro ⟨l₁, a, b', he, -, -⟩
      have hlength := congrArg List.length he
      simp at hlength
    | append_singleton l a _ =>
      rw [agreeingEnd_append]
      constructor
      · intro h
        by_cases hb : intervalVerdict b.1 b.2 = .agree <;> by_cases ha : intervalVerdict a.1 a.2 = .agree <;> simp [ha, hb] at h
        exact ⟨l, a, b, by simp, ha, hb⟩
      · rintro ⟨l₁, a', b', he, ha, hb⟩
        have he' : l ++ [a, b] = l₁ ++ [a', b'] := by simpa using he
        obtain ⟨-, htail⟩ := List.append_inj' he' rfl
        simp only [List.cons.injEq, and_true] at htail
        obtain ⟨rfl, rfl⟩ := htail
        simp [ha, hb]

/-- A domain that was SYNCED before `first` is so after these intervals: none disagrees, or three agree in a row and none disagrees after. -/
def Settled (first : IntervalVerdict) (l : List (Summary × Summary)) : Prop :=
  first ≠ .disagree ∧ (∀ e ∈ l, intervalVerdict e.1 e.2 ≠ .disagree) ∨
    ∃ l₁ l₂ a b c, l = l₁ ++ a :: b :: c :: l₂ ∧ intervalVerdict a.1 a.2 = .agree ∧ intervalVerdict b.1 b.2 = .agree ∧
      intervalVerdict c.1 c.2 = .agree ∧ ∀ e ∈ l₂, intervalVerdict e.1 e.2 ≠ .disagree

theorem settled_append (first : IntervalVerdict) (l : List (Summary × Summary)) (e : Summary × Summary) :
    Settled first (l ++ [e]) ↔ intervalVerdict e.1 e.2 ≠ .disagree ∧
      (Settled first l ∨ intervalVerdict e.1 e.2 = .agree ∧ 2 ≤ agreeingEnd l) := by
  rw [two_le_agreeingEnd]
  constructor
  · rintro (⟨hf, hall⟩ | ⟨l₁, l₂, a, b, c, hl, ha, hb, hc, hall⟩)
    · exact ⟨hall e (by simp), .inl (.inl ⟨hf, fun x hx => hall x (by simp [hx])⟩)⟩
    · induction l₂ using List.reverseRecOn with
      | nil =>
        have hl' : l ++ [e] = (l₁ ++ [a, b]) ++ [c] := by simpa using hl
        obtain ⟨rfl, hlast⟩ := List.append_inj' hl' rfl
        obtain rfl : e = c := by simpa using hlast
        exact ⟨by simp [hc], .inr ⟨hc, l₁, a, b, rfl, ha, hb⟩⟩
      | append_singleton l₂ x _ =>
        have hl' : l ++ [e] = (l₁ ++ a :: b :: c :: l₂) ++ [x] := by simpa using hl
        obtain ⟨rfl, hlast⟩ := List.append_inj' hl' rfl
        obtain rfl : e = x := by simpa using hlast
        exact ⟨hall e (by simp), .inl (.inr ⟨l₁, l₂, a, b, c, rfl, ha, hb, hc, fun y hy => hall y (by simp [hy])⟩)⟩
  · rintro ⟨he, (⟨hf, hall⟩ | ⟨l₁, l₂, a, b, c, rfl, ha, hb, hc, hall⟩) | ⟨hagree, l₁, a, b, rfl, ha, hb⟩⟩
    · refine .inl ⟨hf, fun x hx => ?_⟩
      rcases List.mem_append.1 hx with hx | hx
      · exact hall x hx
      · rwa [List.mem_singleton.1 hx]
    · refine .inr ⟨l₁, l₂ ++ [e], a, b, c, by simp, ha, hb, hc, fun x hx => ?_⟩
      rcases List.mem_append.1 hx with hx | hx
      · exact hall x hx
      · rwa [List.mem_singleton.1 hx]
    · exact .inr ⟨l₁, [], a, b, e, by simp, ha, hb, hagree, by simp⟩

/-- After intervals of two UP screens a domain that was SYNCED is settled and SYNCED, or SYNC_LOST with the agreeing intervals at their end
counted (R103). -/
theorem nextSync_foldl {p q : Summary} (hp : p.up = true) (hq : q.up = true) (l : List (Summary × Summary))
    (hl : ∀ e ∈ l, e.1.up = true ∧ e.2.up = true) :
    let r := l.foldl (fun a e => nextSync a.1 a.2 e.1 e.2) (nextSync .synced 0 p q)
    (r.1 = .synced ∧ Settled (intervalVerdict p q) l) ∨
      (r.1 = .syncLost ∧ ¬ Settled (intervalVerdict p q) l ∧ r.2 = agreeingEnd l ∧ agreeingEnd l ≤ 2) := by
  induction l using List.reverseRecOn with
  | nil =>
    rw [List.foldl_nil, nextSync_up hp hq]
    cases hv : intervalVerdict p q <;> simp [Settled, agreeingEnd]
  | append_singleton l e ih =>
    have hup := hl e (by simp)
    have ih := ih fun x hx => hl x (by simp [hx])
    simp only [List.foldl_append, List.foldl_cons, List.foldl_nil, settled_append, agreeingEnd_append] at ih ⊢
    generalize List.foldl (fun a e => nextSync a.1 a.2 e.1 e.2) (nextSync .synced 0 p q) l = r at ih ⊢
    obtain ⟨sync, run⟩ := r
    rw [nextSync_up hup.1 hup.2]
    obtain ⟨rfl, hset⟩ | ⟨rfl, hset, rfl, hle⟩ := ih
    · cases hv : intervalVerdict e.1 e.2 <;> simp [hset]
    · cases hv : intervalVerdict e.1 e.2 with
      | agree =>
        by_cases h2 : 2 ≤ agreeingEnd l
        · simp [h2]
        · simp [hset, h2]
          omega
      | disagree => simp
      | neutral => simp [hset]

/-! ### The running period -/

theorem State.runningPeriod_free (s : State) {c : DomainContext} (h : c.mode = .free) : s.runningPeriod c = c.settings.freePeriod := by
  simp [State.runningPeriod, h]

theorem State.runningPeriod_locked (s : State) {c : DomainContext} (h : c.mode = .locked) {i : InputId} {delay : Nat}
    (hlock : c.settings.mode = .lock i delay) : s.runningPeriod c = (s.input i).config.period + (s.input i).config.tolerance := by
  simp [State.runningPeriod, h, hlock]

theorem State.runningPeriod_holdover (s : State) {c : DomainContext} (h : c.mode = .holdover) :
    s.runningPeriod c = c.heldPeriod.getD c.settings.freePeriod := by
  simp [State.runningPeriod, h]

/-! ### What a frame start leaves of the other domain -/

theorem State.domainStart_composer_other (s : State) {d : Domain} {sc : Screen} (h : screenDomain sc ≠ d) :
    (s.domainStart d).composer sc = s.composer sc := by
  have h1 : sc ≠ (domainScreens d).1 := fun e => h (screenDomain_eq_iff.2 (.inl e))
  have h2 : sc ≠ (domainScreens d).2 := fun e => h (screenDomain_eq_iff.2 (.inr e))
  simp [State.domainStart, State.handFrameStart, State.composerStart_composer_ne _ _ h1, State.composerStart_composer_ne _ _ h2]

theorem State.domainStart_record_other {s : State} {d : Domain} {h : Handle}
    (hother : ∀ p, s.placement h = some p → screenDomain p.screen ≠ d) : (s.domainStart d).record h = s.record h := by
  have hwork : (s.domainWork d).record h = s.record h := by simp
  have hsame : ∀ t : State, t.record h = s.record h → ∀ p, t.placement h = some p → screenDomain p.screen ≠ d := fun t ht p hp =>
    hother p (by rw [← State.record_body, ← ht]; exact hp)
  have hfirst := (State.composerStart_record_other ((s.domainWork d).domain d).frameNumber fun p hp e =>
    hsame _ hwork p hp (screenDomain_eq_iff.2 (.inl e))).trans hwork
  rw [State.domainStart_record]
  exact (State.composerStart_record_other _ fun p hp e => hsame _ hfirst p hp (screenDomain_eq_iff.2 (.inr e))).trans hfirst

/-! ### The two rows that name a frame start by a link -/

theorem LinkContext.windowRunsOut_iff (l : LinkContext) :
    l.windowRunsOut = true ↔ (l.state = .training ∨ l.state = .recovering) ∧ 31 ≤ l.windowCount ∧
      ¬ (l.interval.trainedSeen = true ∧ 2 ≤ l.trainedRun) := by
  have htrained : (!(l.interval.trainedSeen && decide (3 ≤ l.trainedRun + 1))) = true ↔
      ¬ (l.interval.trainedSeen = true ∧ 2 ≤ l.trainedRun) := by cases l.interval.trainedSeen <;> simp
  rw [LinkContext.windowRunsOut, Bool.and_eq_true, htrained]
  simp [and_assoc]

theorem LinkContext.resetRunsOut_iff (l : LinkContext) : l.resetRunsOut = true ↔ l.state = .resetting ∧ l.resetCount = some 1 := by
  simp [LinkContext.resetRunsOut]

theorem LinkContext.frameStart_windowRunsOut {l : LinkContext} (hstate : l.state = .training ∨ l.state = .recovering)
    (hwindow : 31 ≤ l.windowCount) (htrained : ¬ (l.interval.trainedSeen = true ∧ 2 ≤ l.trainedRun)) (n : Nat) :
    (l.frameStart n).state = .halted ∧ (l.frameStart n).windowCount = l.windowCount + 1 := by
  rw [LinkContext.frameStart_eq, LinkContext.judged_training hstate, if_neg htrained]
  exact ⟨if_pos hwindow, rfl⟩

theorem LinkContext.frameStart_resetRunsOut {l : LinkContext} (hstate : l.state = .resetting) (hcount : l.resetCount = some 1) (n : Nat) :
    (l.frameStart n).state = .training ∧ (l.frameStart n).windowCount = 0 := by
  rw [LinkContext.frameStart_eq, LinkContext.judged_resetting hstate hcount, if_neg (by decide)]
  exact ⟨rfl, rfl⟩

theorem exec_trainingWindowExpiry {s : State} (hrun : s.resetLow = false) (sc : Screen) :
    exec (.trainingWindowExpiry sc) s = .next (if (s.domain (screenDomain sc)).nextStart = s.timeBase ∧ (s.link sc).windowRunsOut = true then
      s.domainStart (screenDomain sc) else s) := by
  change execTrainingWindowExpiry sc s = _
  rw [execTrainingWindowExpiry, whileRunning_of hrun]
  simp [State.frameDue]

theorem exec_linkResetEnd {s : State} (hrun : s.resetLow = false) (sc : Screen) :
    exec (.linkResetEnd sc) s = .next (if (s.domain (screenDomain sc)).nextStart = s.timeBase ∧ (s.link sc).resetRunsOut = true then
      s.domainStart (screenDomain sc) else s) := by
  change execLinkResetEnd sc s = _
  rw [execLinkResetEnd, whileRunning_of hrun]
  simp [State.frameDue]

end Sys2Proof.Machine

namespace Sys2Proof.Safety
open Sys2Proof.Machine

/-- Settles O34: the verdicts, the three states' own steps, and the run of agreeing intervals counted over a list of them. -/
theorem syncNeedsThreeAgreeingIntervals : Obligations.SyncNeedsThreeAgreeingIntervals := by
  intro p q
  refine ⟨intervalVerdict_agree, intervalVerdict_disagree, fun sync run hup => ?_, fun hp hq => ⟨fun run => ?_, fun run => ?_, fun l hl => ?_⟩⟩
  · unfold nextSync
    rw [if_neg (by simpa using hup)]
    cases sync <;> rfl
  · rw [nextSync_up hp hq]
    cases intervalVerdict p q <;> rfl
  · rw [nextSync_up hp hq]
    cases intervalVerdict p q <;> rfl
  · change _ ↔ Settled (intervalVerdict p q) l
    obtain ⟨hsync, hset⟩ | ⟨hsync, hset, -⟩ := nextSync_foldl hp hq l hl
    · simp [hsync, hset]
    · simp [hsync, hset]

/-- Settles O33: the four steps of the domain's own work, on the context the domain had. -/
theorem domainFrameStartAdvancesTheDomain : Obligations.DomainFrameStartAdvancesTheDomain := by
  intro s d hrun
  refine ⟨exec_domainFrameStart_notDue hrun, ?_⟩
  rintro hdue c x y rfl rfl rfl
  refine ⟨_, exec_domainFrameStart hrun hdue, ?_⟩
  rw [State.domainStart_domain, if_pos rfl]
  obtain ⟨hsettings, hpending, hsync, hagreeing⟩ := (s.domain d).takeSettings_settings fun i => (s.input i).monitor = .locked
  have hnumber : ((s.domain d).takeSettings fun i => (s.input i).monitor = .locked).frameNumber = (s.domain d).frameNumber := by
    unfold DomainContext.takeSettings
    repeat' split
    all_goals rfl
  refine ⟨hpending, hsettings, fun hnone => ?_, fun q hq => ⟨fun hfree => ?_, fun i delay hlock => ?_⟩, ?_, rfl, fun hfree => ?_,
    fun i delay hlocked hlock => ?_, fun hholdover => ?_, rfl, rfl, rfl, ?_⟩
  · simp [State.worked, DomainContext.judgeSync, DomainContext.takeSettings, hnone]
  · simp [State.worked, DomainContext.judgeSync, DomainContext.takeSettings, hq, hfree]
  · simp [State.worked, DomainContext.judgeSync, DomainContext.takeSettings, hq, hlock]
  · exact congrArg nextFrameNumber hnumber
  · exact s.runningPeriod_free hfree
  · exact s.runningPeriod_locked hlocked hlock
  · exact s.runningPeriod_holdover hholdover
  · change nextSync _ _ _ _ = _
    rw [hsync, hagreeing]

/-- Settles O35: each step of a frame start names its own domain and screens, and reaches the inputs through holders alone. -/
theorem frameStartStaysInItsDomain : Obligations.FrameStartStaysInItsDomain := by
  intro s t d h
  have hframe := execDomainFrameStart_frame d h
  have hstart : t = s ∨ t = s.domainStart d := by
    change execDomainFrameStart d s = _ at h
    rw [execDomainFrameStart, whileRunning_eq] at h
    have ht := Host.Outcome.next.inj h
    split at ht
    · exact .inl ht.symm
    · split at ht
      · exact .inr ht.symm
      · exact .inl ht.symm
  obtain rfl | rfl := hstart
  · exact ⟨fun _ _ => rfl, fun _ _ => ⟨rfl, rfl⟩, fun _ _ => rfl, fun _ => rfl, fun _ => .inr rfl, hframe⟩
  · have hstage := s.domainStart_storeStage holderRel_le d (.inl fun a b hab => (Nat.le_succ a).trans hab)
    refine ⟨fun e he => ?_, fun sc hsc => ⟨?_, ?_⟩, fun k hk => ?_, hstage.inputs, fun r => hstage.slots s.slot (fun r => .refl _) r, hframe⟩
    · rw [State.domainStart_domain, if_neg he]
    · obtain ⟨k, b, -, hlink⟩ := s.domainStart_link d sc
      rw [hlink, if_neg hsc]
    · exact s.domainStart_composer_other hsc
    · exact s.domainStart_record_other hk

/-- Settles O36: each row is the frame start of its domain where it is due and the link's window or reset runs out. -/
theorem windowAndResetEndAtAFrameStart : Obligations.WindowAndResetEndAtAFrameStart := by
  intro s sc hrun
  refine ⟨fun hdue hstate hwindow htrained => ?_, fun hdue hstate hcount => ?_, fun h => ?_, fun h => ?_⟩
  · refine ⟨_, ?_, exec_domainFrameStart hrun hdue, ?_⟩
    · rw [exec_trainingWindowExpiry hrun, if_pos ⟨hdue, (s.link sc).windowRunsOut_iff.2 ⟨hstate, hwindow, htrained⟩⟩]
    · obtain ⟨k, b, -, hlink⟩ := s.domainStart_link (screenDomain sc) sc
      rw [hlink, if_pos rfl]
      exact LinkContext.frameStart_windowRunsOut (l := { s.link sc with pendingChoice := k, badChoices := b }) hstate hwindow htrained _
  · refine ⟨_, ?_, exec_domainFrameStart hrun hdue, ?_⟩
    · rw [exec_linkResetEnd hrun, if_pos ⟨hdue, (s.link sc).resetRunsOut_iff.2 ⟨hstate, hcount⟩⟩]
    · obtain ⟨k, b, -, hlink⟩ := s.domainStart_link (screenDomain sc) sc
      rw [hlink, if_pos rfl]
      exact LinkContext.frameStart_resetRunsOut (l := { s.link sc with pendingChoice := k, badChoices := b }) hstate hcount _
  · rw [exec_trainingWindowExpiry hrun, if_neg]
    rintro ⟨hdue, hruns⟩
    obtain ⟨hstate, hwindow, htrained⟩ := (s.link sc).windowRunsOut_iff.1 hruns
    rcases h with h | ⟨h1, h2⟩ | h | h
    · exact h hdue
    · exact hstate.elim h1 h2
    · omega
    · exact htrained h
  · rw [exec_linkResetEnd hrun, if_neg]
    rintro ⟨hdue, hruns⟩
    obtain ⟨hstate, hcount⟩ := (s.link sc).resetRunsOut_iff.1 hruns
    rcases h with h | h | h
    · exact h hdue
    · exact h hstate
    · exact h hcount

end Sys2Proof.Safety
end


section
/-! SUPPORT. The command port: what the walk over a body can give, and the framing check in the order of R169 (R167, R169, R187, R188). -/

namespace Sys2Proof.Safety
open Sys2Proof.Machine

/-! ### What a walk can give -/

/-- Every item this walk gives has the property. -/
def Yields {α : Type} (p : Parser α) (Q : α → Prop) : Prop := ∀ bs a rest, p bs = .ok a rest → Q a

theorem Yields.done {α : Type} {a : α} {Q : α → Prop} (h : Q a) : Yields (Parser.done a) Q := by
  intro bs x rest hx
  cases hx
  exact h

theorem Yields.andThen {α β : Type} {p : Parser α} {f : α → Parser β} {P : α → Prop} {Q : β → Prop} (hp : Yields p P)
    (hf : ∀ a, P a → Yields (f a) Q) : Yields (p.andThen f) Q := by
  intro bs b rest h
  unfold Parser.andThen at h
  cases hpb : p bs with
  | ok a rest' =>
    rw [hpb] at h
    exact hf a (hp _ _ _ hpb) _ _ _ h
  | short => rw [hpb] at h; cases h
  | unknown => rw [hpb] at h; cases h

/-- A walk of whose item nothing is asked, and then another. -/
theorem Yields.read {α β : Type} {p : Parser α} {f : α → Parser β} {Q : β → Prop} (hf : ∀ a, Yields (f a) Q) : Yields (p.andThen f) Q :=
  .andThen (P := fun _ => True) (fun _ _ _ _ => trivial) fun a _ => hf a

theorem Yields.unknown {α : Type} {Q : α → Prop} : Yields (fun _ => .unknown) Q := by
  intro bs a rest h
  cases h

theorem Yields.guard {α : Type} {c : Prop} [Decidable c] {p : Parser α} {Q : α → Prop} (h : c → Yields p Q) :
    Yields (if c then p else fun _ => .unknown) Q := by
  by_cases hc : c
  · rw [if_pos hc]; exact h hc
  · rw [if_neg hc]; exact .unknown

theorem Yields.handOver {α : Type} {p : Parser α} {Q : α → Prop} (h : Yields p Q) : Yields (handOver p) (fun o => ∀ a, o = some a → Q a) := by
  intro bs o rest ho a ha
  unfold Sys2Proof.handOver at ho
  cases hp : p bs with
  | ok x rest' =>
    rw [hp] at ho
    cases ho
    cases ha
    exact h _ _ _ hp
  | short => rw [hp] at ho; cases ho
  | unknown => rw [hp] at ho; cases ho; cases ha

theorem readOption_yields {α : Type} {p : Parser α} {Q : α → Prop} (h : Yields p Q) :
    Yields (readOption p) (fun o => ∀ a, o = some a → Q a) := by
  refine .read fun mark => ?_
  split
  · exact .done fun a ha => nomatch ha
  · refine .guard fun _ => .andThen h fun a ha => .done fun b hb => ?_
    cases hb
    exact ha

theorem readBytes_yields (n : Nat) : Yields (readBytes n) (fun l => l.length = n) := by
  induction n with
  | zero => exact .done rfl
  | succ n ih => exact .read fun b => .andThen ih fun l hl => .done (by simp [hl])

theorem readPairs_yields (n : Nat) : Yields (readPairs n) (fun l => l.length = n) := by
  induction n with
  | zero => exact .done rfl
  | succ n ih => exact .read fun k => .read fun m => .andThen ih fun l hl => .done (by simp [hl])

theorem readChoices_yields : Yields readChoices (fun l => l.length ≤ 8) :=
  .read fun n => .guard fun hn => fun bs l rest h => (readBytes_yields n.toNat bs l rest h).trans_le hn

theorem readOption_choices_yields : Yields (readOption readChoices) (fun o => choicesFit o = true) := by
  intro bs o rest h
  cases o with
  | none => rfl
  | some l => exact decide_eq_true (readOption_yields readChoices_yields bs _ rest h l rfl)

theorem readFieldValue_yields (number : Byte) : Yields (readFieldValue number) (fun f => f.wf = true) := by
  unfold readFieldValue
  split
  case h_12 => exact .andThen readOption_choices_yields fun v hv => .done hv
  case h_16 => exact .unknown
  all_goals exact .read fun v => .done rfl

theorem readEntries_yields (n : Nat) : Yields (readEntries n) (fun l => l.length = n ∧ l.all RawField.wf = true) := by
  induction n with
  | zero => exact .done ⟨rfl, rfl⟩
  | succ n ih =>
    have hentry : Yields readEntry (fun f => f.wf = true) := .read fun number => readFieldValue_yields number
    exact .andThen hentry fun e he => .andThen ih fun l hl => .done ⟨by simp [hl.1], by simp [he, hl.2]⟩

theorem readImage_yields : Yields readImage (fun m => choicesFit m.choices = true) := by
  unfold readImage
  refine .read fun _ => .read fun _ => .read fun _ => .read fun _ => .read fun _ => .read fun _ => .read fun _ => .read fun _ =>
    .read fun _ => .read fun _ => .read fun _ => ?_
  exact .andThen readOption_choices_yields fun v hv => .done hv

/-- A command of the port that a frame can spell. -/
def Spelled (c : Instr) : Prop := c.wf = true ∧ isCommand c = true

/-- Each body's walk gives commands within the lengths of its layout (R187, R188). -/
theorem readBody_yields {code : Byte} {walk : Parser Instr} (h : readBody code = some walk) : Yields walk Spelled := by
  unfold readBody at h
  split at h
  case h_1 =>
    obtain rfl := Option.some.inj h
    refine .read fun _ => .read fun _ => .read fun _ => .andThen readImage_yields.handOver fun m hm => .done ⟨?_, rfl⟩
    cases m with
    | none => rfl
    | some m => exact hm m rfl
  case h_2 =>
    obtain rfl := Option.some.inj h
    refine .read fun _ => .read fun _ => .read fun _ => ?_
    have hlist : Yields (readByte.andThen fun n => if n.toNat ≤ 15 then readEntries n.toNat else fun _ => .unknown)
        (fun l => l.length ≤ 15 ∧ l.all RawField.wf = true) :=
      .read fun n => .guard fun hn => fun bs l rest hl =>
        have hentries := readEntries_yields n.toNat bs l rest hl
        ⟨hentries.1.trans_le hn, hentries.2⟩
    refine .andThen hlist.handOver fun es hes => .done ⟨?_, rfl⟩
    cases es with
    | none => rfl
    | some es => simpa [Instr.wf] using hes es rfl
  case h_4 =>
    obtain rfl := Option.some.inj h
    have hlist : Yields (readByte.andThen fun n => if n.toNat ≤ 4 then readBytes n.toNat else fun _ => .unknown) (fun l => l.length ≤ 4) :=
      .read fun n => .guard fun hn => fun bs l rest hl => (readBytes_yields n.toNat bs l rest hl).trans_le hn
    refine .andThen hlist.handOver fun l hl => .done ⟨?_, rfl⟩
    cases l with
    | none => rfl
    | some l => exact decide_eq_true (hl l rfl)
  case h_22 =>
    obtain rfl := Option.some.inj h
    have hlist : Yields (readByte.andThen fun n => if 1 ≤ n.toNat ∧ n.toNat ≤ 9 then readPairs n.toNat else fun _ => .unknown)
        (fun l => 1 ≤ l.length ∧ l.length ≤ 9) :=
      .read fun n => .guard fun hn => fun bs l rest hl =>
        have hpairs := readPairs_yields n.toNat bs l rest hl
        ⟨hn.1.trans_eq hpairs.symm, hpairs.trans_le hn.2⟩
    refine .andThen hlist.handOver fun l hl => .done ⟨?_, rfl⟩
    cases l with
    | none => rfl
    | some l => simpa [Instr.wf] using hl l rfl
  case h_23 => cases h
  all_goals
    obtain rfl := Option.some.inj h
    repeat' refine Yields.read fun _ => ?_
    exact .done ⟨rfl, rfl⟩

/-- The codes of the 22 commands are those with a layout (R187). -/
theorem readBody_eq_none {code : Byte} : readBody code = none ↔ isCommandCode code = false := by
  unfold readBody isCommandCode
  split
  case h_23 =>
    simp only [Bool.and_eq_false_iff, decide_eq_false_iff_not, true_iff]
    by_contra hbounds
    have hlow : 1 ≤ code.toNat := by omega
    have hhigh : code.toNat ≤ 22 := by omega
    interval_cases code.toNat <;> contradiction
  all_goals
    rename_i hcode
    simp [hcode]

/-! ### The framing check -/

theorem decodeFrame_unknown {code : Byte} (h : isCommandCode code = false) (length : Byte) (body : List Byte) :
    decodeFrame code length body = .commandFrameRejected .unknownCode (some code) := by
  simp [decodeFrame, readBody_eq_none.2 h]

/-- The framing check of a command's code (R169). -/
theorem decodeFrame_known {code : Byte} (h : isCommandCode code = true) (length : Byte) (body : List Byte) :
    ∃ walk, readBody code = some walk ∧ decodeFrame code length body =
      if 250 < length.toNat then .commandFrameRejected .lengthOutOfRange (some code)
      else if body.length < length.toNat then .commandFrameRejected .bodyShort (some code)
      else if length.toNat < body.length then .commandFrameRejected .bodyLong (some code)
      else match walk body with
        | .ok i [] => i
        | _ => .commandFrameRejected .lengthMismatch (some code) := by
  cases hw : readBody code with
  | none => rw [readBody_eq_none.1 hw] at h; cases h
  | some walk => exact ⟨walk, rfl, by simp only [decodeFrame, hw]; rfl⟩

/-- The command of a whole body, or a rejection (R169). -/
theorem walk_result {code : Byte} {walk : Parser Instr} (h : readBody code = some walk) (body : List Byte) (c : Instr)
    (hc : c = match walk body with | .ok i [] => i | _ => .commandFrameRejected .lengthMismatch (some code)) :
    Spelled c ∨ c = .commandFrameRejected .lengthMismatch (some code) := by
  subst hc
  split
  · rename_i hi
    exact .inl (readBody_yields h _ _ _ hi)
  · exact .inr rfl

theorem decodeFrame_wf {code : Byte} (hfetch : code ≠ Config.fetchCode) (length : Byte) (body : List Byte) :
    (decodeFrame code length body).wf = true := by
  cases hcode : isCommandCode code with
  | false =>
    rw [decodeFrame_unknown hcode]
    simp [Instr.wf, rejectionFits, hcode, hfetch]
  | true =>
    obtain ⟨walk, hwalk, hframe⟩ := decodeFrame_known hcode length body
    rw [hframe]
    split_ifs
    · exact hcode
    · exact hcode
    · exact hcode
    · obtain ⟨hwf, -⟩ | hrejected := walk_result hwalk body _ rfl
      · exact hwf
      · rw [hrejected]; exact hcode

theorem decodeTransaction_frame {code : Byte} (hfetch : code ≠ 240) (length : Byte) (body : List Byte) :
    decodeTransaction (code :: length :: body) = some (decodeFrame code length body) := if_neg hfetch

/-- Settles O26: the tests of the frame in their order, and of what the walk over a body can give. -/
theorem framingCheckInOrder : Obligations.FramingCheckInOrder := by
  refine ⟨rfl, fun bytes c h => ?_, fun rest => by simp [decodeTransaction, Config.fetchCode], fun code hcode => if_neg hcode, fun code length body hfetch => ⟨fun h => ?_, fun h1 h22 => ?_⟩⟩
  · match bytes with
    | [] => cases h
    | [code] =>
      by_cases hcode : code = Config.fetchCode
      · rw [hcode] at h; cases h; rfl
      · obtain rfl := Option.some.inj ((if_neg hcode).symm.trans h)
        rfl
    | code :: length :: body =>
      by_cases hcode : code = Config.fetchCode
      · obtain rfl := Option.some.inj ((if_pos hcode).symm.trans h)
        rfl
      · obtain rfl := Option.some.inj ((decodeTransaction_frame hcode length body).symm.trans h)
        exact decodeFrame_wf hcode length body
  · have hcode : isCommandCode code = false := by
      simp only [isCommandCode, Bool.and_eq_false_iff, decide_eq_false_iff_not]
      omega
    rw [decodeTransaction_frame hfetch, decodeFrame_unknown hcode]
  · have hcode : isCommandCode code = true := by simp [isCommandCode, h1, h22]
    obtain ⟨walk, hwalk, hframe⟩ := decodeFrame_known hcode length body
    rw [decodeTransaction_frame hfetch, hframe]
    refine ⟨fun h => by rw [if_pos (by omega)], fun h => ⟨fun hshort => ?_, fun hlong => ?_, fun heq => ?_⟩⟩
    · rw [if_neg (by omega), if_pos hshort]
    · rw [if_neg (by omega), if_neg (by omega), if_pos hlong]
    · refine ⟨_, rfl, ?_⟩
      rw [if_neg (by omega), if_neg (by omega), if_neg (by omega)]
      exact (walk_result hwalk body _ rfl).imp And.right id

end Sys2Proof.Safety
end


section
/-! SUPPORT. The notice unit's two commands (R176 to R182), and the transactions of the command port byte by byte (R167, R168, R171). -/

namespace Sys2Proof.Safety
open Sys2Proof.Machine

/-! ### TAKE_NOTICE -/

/-- The item of a value that stands at place `n` of its table, where the table gives each place its number. -/
theorem listed_item {α : Type} (item : α → List Byte) {l : List α}
    (hl : (l.zipIdx.map fun e => item e.1) = (l.zipIdx.map fun e => byteItem e.2)) {n : Nat} {a : α} (hn : l[n]? = some a) :
    item a = [BitVec.ofNat 8 n] := by
  have hget := congrArg (fun m : List (List Byte) => m[n]?) hl
  simpa [hn, byteItem] using hget

/-- The LIVE selectable record of lowest handle on a screen (log entry 19). -/
theorem liveSelectable_lowest {s : State} {sc : Screen} {h : Handle}
    (hh : ∃ p, s.placement h = some p ∧ p.screen = sc ∧ (p.isLive && p.selectable) = true)
    (hlow : ∀ k, (∃ p, s.placement k = some p ∧ p.screen = sc ∧ (p.isLive && p.selectable) = true) → h ≤ k) :
    s.liveSelectable sc = some h := by
  have hsorted := s.handlesOn_sorted sc fun p => p.isLive && p.selectable
  have hmem := State.mem_handlesOn.2 hh
  unfold State.liveSelectable
  cases hl : s.handlesOn sc fun p => p.isLive && p.selectable with
  | nil => rw [hl] at hmem; exact absurd hmem List.not_mem_nil
  | cons a l =>
    rw [hl] at hsorted hmem
    have hle : h ≤ a := hlow a (State.mem_handlesOn.1 (hl ▸ List.mem_cons_self ..))
    rcases List.mem_cons.1 hmem with rfl | hin
    · rfl
    · exact absurd (List.rel_of_pairwise_cons hsorted hin) (not_lt.2 hle)

theorem liveSelectable_eq_none {s : State} {sc : Screen}
    (h : ∀ k p, s.placement k = some p → p.screen = sc → (p.isLive && p.selectable) = true → False) : s.liveSelectable sc = none := by
  unfold State.liveSelectable
  cases hl : s.handlesOn sc fun p => p.isLive && p.selectable with
  | nil => rfl
  | cons a l =>
    obtain ⟨p, hp, hsc, hq⟩ := State.mem_handlesOn.1 (hl ▸ List.mem_cons_self .. : a ∈ s.handlesOn sc fun p => p.isLive && p.selectable)
    exact (h a p hp hsc hq).elim

/-- The entry of highest priority and lowest subject has the lowest rank. -/
theorem rank_lt_of_priority {k j : NoticeKey}
    (h : k.kind.priority < j.kind.priority ∨ (k.kind.priority = j.kind.priority ∧ k.subject < j.subject)) : k.rank < j.rank := by
  have hk := subject_lt k
  have hj := subject_lt j
  unfold NoticeKey.rank
  omega

/-- The entry whose rank is below every other stands first, and is the only one of its kind and subject (R176, R179). -/
theorem entries_eq_cons {s : State} (hs : NoticeLaw s) {e : NoticeEntry} (he : e ∈ s.notices.entries)
    (hlow : ∀ x ∈ s.notices.entries, x ≠ e → e.key.rank < x.key.rank) :
    s.notices.entries = e :: s.notices.entries.filter fun x => x ≠ e := by
  have hsorted := hs.1
  cases hl : s.notices.entries with
  | nil => rw [hl] at he; exact absurd he List.not_mem_nil
  | cons a l =>
    rw [hl] at hsorted he hlow
    simp only [List.map_cons, List.pairwise_cons, List.mem_map, forall_exists_index, and_imp, forall_apply_eq_imp_iff₂] at hsorted
    have hfirst : a = e := by
      by_contra hne
      have hin := (List.mem_cons.1 he).resolve_left (Ne.symm hne)
      exact lt_asymm (hlow a (List.mem_cons_self ..) hne) (hsorted.1 e hin)
    subst hfirst
    have hrest : ∀ x ∈ l, x ≠ a := fun x hx hxa => by
      subst hxa
      exact lt_irrefl _ (hsorted.1 x hx)
    have hfilter : l.filter (fun x => x ≠ a) = l := List.filter_eq_self.2 fun x hx => decide_eq_true (hrest x hx)
    rw [List.filter_cons_of_neg (by simp), hfilter]

theorem subjectItem_eq (k : NoticeKey) : subjectItem k = [BitVec.ofNat 8 k.subject] := by cases k <;> rfl

/-- The LIVE selectable records, as R180 names them. -/
theorem selectable_live {p : Placement} : (p.isLive && p.selectable) = true ↔ p.selectable = true ∧ ∃ m, p.committed = some m := by
  rw [Bool.and_eq_true, and_comm, Placement.isLive, Option.isSome_iff_exists]

theorem selectedSource_eq {s : State} {sc : Screen} {h : Handle} {p : Placement} {m : Image} (hp : s.placement h = some p)
    (hm : p.committed = some m) (hsel : s.liveSelectable sc = some h) : s.selectedSource sc = some m.source := by
  simp [State.selectedSource, hsel, hp, hm]

theorem exec_takeNotice {s : State} (hrun : s.resetLow = false) {e : NoticeEntry} {rest : List NoticeEntry}
    (he : s.notices.entries = e :: rest) :
    exec .takeNotice s = .next { s with
      notices := { s.notices with entries := rest }
      port := { s.port with buffer := some ⟨.ok,
        [BitVec.ofNat 8 e.key.kind.priority, 1, BitVec.ofNat 8 e.key.subject, BitVec.ofNat 8 e.count] ++ s.currentValue e.key ++
          [BitVec.ofNat 8 rest.length]⟩ } } := by
  change execTakeNotice s = _
  rw [execTakeNotice, whileRunning_of hrun, he]
  simp only [optionItem, subjectItem_eq, byteItem]
  rfl

/-- Settles O23: the current value by the table of R180, and the removal of the first entry. -/
theorem takeNoticeReturnsTheMostImportant : Obligations.TakeNoticeReturnsTheMostImportant := by
  refine ⟨fun s => ⟨fun h n v hv hn => ?_, fun h hv => ?_, fun sc n hn => ?_, fun i n hn => ?_, fun d n hn => ?_, fun d n hn => ?_,
    fun sc n hn => ?_, fun i n hn => ?_, fun sc selected hsel => ⟨fun hnone => ?_, fun h m hm hlow => ?_⟩⟩,
    fun s hrun => ⟨fun hempty => ⟨?_, ?_⟩, fun hs e he hlow => ?_⟩⟩
  · have hitem := listed_item viewItem (l := [.showing, .holding, .filled, .alternate, .hidden, .frozen]) rfl hn
    exact ⟨by simp only [State.currentValue, hv]; exact congrArg _ hitem, by simp only [State.currentValue, hv]; exact congrArg _ hitem⟩
  · simp only [State.currentValue, hv]
    exact ⟨rfl, rfl⟩
  · exact congrArg _ (listed_item linkStateItem (l := [.down, .training, .up, .recovering, .halted, .resetting]) rfl hn)
  · exact congrArg _ (listed_item monitorItem (l := [.absent, .acquiring, .locked, .lost]) rfl hn)
  · exact congrArg _ (listed_item syncItem (l := [.unsynced, .synced, .syncLost]) rfl hn)
  · exact congrArg _ (listed_item modeItem (l := [.free, .locked, .holdover]) rfl hn)
  · subst hn; rfl
  · subst hn; rfl
  · have hsource : s.selectedSource sc = none := by
      simp [State.selectedSource, liveSelectable_eq_none fun k p hp hsc hq =>
        let ⟨hselect, m, hm⟩ := selectable_live.1 hq
        hnone k m ((hsel k m).2 ⟨p, hp, hsc, hselect, hm⟩)]
    simp only [State.currentValue, hsource]
    rfl
  · obtain ⟨p, hp, hsc, hselect, hcommitted⟩ := (hsel h m).1 hm
    have hsource := selectedSource_eq hp hcommitted (liveSelectable_lowest ⟨p, hp, hsc, selectable_live.2 ⟨hselect, m, hcommitted⟩⟩
      fun k ⟨q, hq, hqsc, hlive⟩ =>
        let ⟨hqselect, n, hn⟩ := selectable_live.1 hlive
        hlow k n ((hsel k n).2 ⟨q, hq, hqsc, hqselect, hn⟩))
    simp only [State.currentValue, hsource]
    refine ⟨fun i hi => ?_, fun hi => ?_⟩
    · rw [hi]; rfl
    · rw [hi]; rfl
  · change execTakeNotice s = _
    rw [execTakeNotice, whileRunning_of hrun, hempty]
    rfl
  · simp [State.attn, hempty]
  · have hcons := entries_eq_cons hs he fun x hx hne => rank_lt_of_priority (hlow x hx hne)
    have hlength : s.notices.entries.length = (s.notices.entries.filter fun x => x ≠ e).length + 1 := by
      conv_lhs => rw [hcons, List.length_cons]
    refine ⟨_, exec_takeNotice hrun hcons, ?_, ?_, ?_⟩
    · rw [hlength, Nat.add_sub_cancel]
    · rw [hlength]
      generalize s.notices.entries.filter (fun x => x ≠ e) = rest
      cases rest <;> simp [State.attn, hrun]
    · rw [State.attn, hrun, hcons]
      rfl

/-! ### MASK_NOTICES -/

/-- A list of masks applied leaves the entries of no kind it masks (R182). -/
theorem applyMasks_entries (l : List (NoticeKind × Bool)) (n : NoticeUnit) :
    (l.foldl NoticeUnit.applyMask n).entries = n.entries.filter fun e => decide ((e.key.kind, true) ∉ l) := by
  induction l generalizing n with
  | nil => simp
  | cons x l ih =>
    obtain ⟨kind, mask⟩ := x
    rw [List.foldl_cons, ih]
    cases mask with
    | true =>
      simp only [NoticeUnit.applyMask, if_true, List.filter_filter]
      refine List.filter_congr fun e _ => ?_
      by_cases he : e.key.kind = kind <;> simp [he]
    | false =>
      refine List.filter_congr fun e _ => ?_
      simp

/-- The mask of a kind the list does not name stays, and that of one it names is the one given (R182). -/
theorem applyMasks_masks (l : List (NoticeKind × Bool)) (n : NoticeUnit) (k : NoticeKind) :
    (k ∉ l.map Prod.fst → (l.foldl NoticeUnit.applyMask n).masks.get k = n.masks.get k) ∧
      ∀ v, (k, v) ∈ l → (l.map Prod.fst).Nodup → (l.foldl NoticeUnit.applyMask n).masks.get k = v := by
  induction l generalizing n with
  | nil => exact ⟨fun _ => rfl, fun v hv => absurd hv List.not_mem_nil⟩
  | cons x l ih =>
    obtain ⟨kind, mask⟩ := x
    obtain ⟨hother, hnamed⟩ := ih (n.applyMask (kind, mask))
    rw [List.foldl_cons]
    simp only [List.map_cons, List.mem_cons, not_or, List.nodup_cons, Prod.mk.injEq]
    refine ⟨fun ⟨hne, hnot⟩ => ?_, fun v hv ⟨hnot, hnodup⟩ => ?_⟩
    · rw [hother hnot, NoticeUnit.applyMask, NoticeMasks.get_set, if_neg hne]
    · rcases hv with ⟨rfl, rfl⟩ | hv
      · rw [hother hnot, NoticeUnit.applyMask, NoticeMasks.get_set, if_pos rfl]
      · exact hnamed v hv hnodup

theorem masksItem_eq (m : NoticeMasks) : masksItem m = allKinds.map fun k => if m.get k then 0 else 1 := by
  have hone : ∀ k, byteItem (if m.get k then 0 else 1) = [if m.get k then 0 else 1] := fun k => by cases m.get k <;> rfl
  simp only [masksItem, hone, List.map_eq_flatMap]

/-- MASK_NOTICES of a list that can be read, and of one that cannot (R182). -/
theorem exec_maskNotices_bad {s : State} (hrun : s.resetLow = false) {l : Option (List (Byte × Byte))}
    (hl : l.bind (readAll maskPairOf) = none) : exec (.maskNotices l) s = .next (s.respond .badField []) := by
  change execMaskNotices l s = _
  rw [execMaskNotices, whileRunning_of hrun, hl]
  rfl

theorem exec_maskNotices {s : State} (hrun : s.resetLow = false) {l : List (Byte × Byte)} {ps : List (NoticeKind × Bool)}
    (hl : readAll maskPairOf l = some ps) :
    exec (.maskNotices (some l)) s = .next (if ps = [] ∨ 9 < ps.length ∨ ¬ (ps.map Prod.fst).Nodup then s.respond .badField [] else
      ({ s with notices := ps.foldl NoticeUnit.applyMask s.notices } : State).respond .ok
        (masksItem (ps.foldl NoticeUnit.applyMask s.notices).masks)) := by
  have hbind : (some l).bind (readAll maskPairOf) = some ps := hl
  change execMaskNotices (some l) s = _
  rw [execMaskNotices, whileRunning_of hrun, hbind]
  refine congrArg _ (if_congr ?_ rfl rfl)
  simp [List.isEmpty_iff, or_assoc]

/-- Settles O24: every entry of the list applied in turn, and its refusals. -/
theorem maskNoticesAppliesTheWholeList : Obligations.MaskNoticesAppliesTheWholeList := by
  intro s l hrun
  refine ⟨exec_maskNotices_bad hrun rfl, fun hl => exec_maskNotices_bad hrun hl, fun ps hps => ⟨fun hbad => ?_, fun hne hlength hnodup => ?_⟩⟩
  · rw [exec_maskNotices hrun hps, if_pos hbad]
  · refine ⟨_, by rw [exec_maskNotices hrun hps, if_neg (by simp [hne, hlength, hnodup])], fun k v hv => ?_, fun k hk => ?_, ?_, ?_⟩
    · exact (applyMasks_masks ps s.notices k).2 v hv hnodup
    · exact (applyMasks_masks ps s.notices k).1 hk
    · exact applyMasks_entries ps s.notices
    · rw [masksItem_eq]
      rfl

/-! ### The transactions of the port -/

/-- The transaction after these bytes are clocked. -/
def clockAll (t : Transaction) (bytes : List Byte) : Transaction := bytes.foldl (fun t b => t.clock b) t

theorem clockBytes_eq (bytes : List Byte) (s : State) :
    bytes.foldl State.clockByte s = { s with
      port := { s.port with transaction := clockAll s.port.transaction bytes } } := by
  induction bytes generalizing s with
  | nil => rfl
  | cons b bytes ih => rw [List.foldl_cons, ih]; rfl

theorem clockAll_idle (bytes : List Byte) : clockAll .idle bytes = .idle := by
  induction bytes with
  | nil => rfl
  | cons b bytes ih => exact ih

theorem clockAll_command (bytes bs : List Byte) : clockAll (.command bs) bytes = .command (bs ++ bytes) := by
  induction bytes generalizing bs with
  | nil => simp [clockAll]
  | cons b bytes ih => exact (ih (bs ++ [b])).trans (by simp)

theorem clockAll_fetch (bytes : List Byte) (n : Nat) : clockAll (.fetch n) bytes = .fetch (n + bytes.length) := by
  induction bytes generalizing n with
  | nil => rfl
  | cons b bytes ih => exact (ih (n + 1)).trans (by rw [List.length_cons, Nat.add_assoc, Nat.add_comm 1])

/-- A whole transaction spells the command of its bytes (R167, R168). -/
theorem clockAll_spells (bytes : List Byte) : (clockAll .opening bytes).spells = decodeTransaction bytes := by
  cases bytes with
  | nil => rfl
  | cons b bytes =>
    change (clockAll (if b = Config.fetchCode then .fetch 0 else .command [b]) bytes).spells = _
    by_cases hfetch : b = Config.fetchCode
    · rw [if_pos hfetch, clockAll_fetch, Nat.zero_add, hfetch]
      simp [Transaction.spells, decodeTransaction]
    · rw [if_neg hfetch, clockAll_command]
      rfl

theorem drivenByte_none (n : Nat) : drivenByte none n = if n = 0 then 1 else 0 := by
  match n with
  | 0 => rfl
  | 1 => rfl
  | n + 2 => rfl

theorem drivenByte_some (r : Response) (n : Nat) :
    drivenByte (some r) n = if n = 0 then BitVec.ofNat 8 r.code.number else if n = 1 then BitVec.ofNat 8 r.body.length
      else r.body[n - 2]?.getD 0 := by
  match n with
  | 0 => rfl
  | 1 => rfl
  | n + 2 => rfl

theorem misoByte_of {s : State} (hrun : s.resetLow = false) (hcs : s.port.csLow = true) :
    s.misoByte = match s.port.transaction with | .fetch n => some (drivenByte s.port.buffer n) | _ => some 0 := by
  unfold State.misoByte
  rw [hrun, hcs]
  rfl

theorem exec_fetchTransaction {s : State} (hrun : s.resetLow = false) (n : Nat) :
    exec (.fetchTransaction n) s = .next { s with port := s.port.fetch n } := by
  change execFetchTransaction n s = _
  rw [execFetchTransaction, whileRunning_of hrun]

/-- Settles O25: the transaction's own state, the bytes driven in a fetch, and the two rows of the port. -/
theorem portTransactionsTouchOnlyThePort : Obligations.PortTransactionsTouchOnlyThePort := by
  refine ⟨fun s => ⟨fun hrun => ?_, fun hrun => ?_, fun b => ⟨fun h => ?_, fun h => ?_, fun bs h => ?_, fun n h => ?_⟩, ?_, fun hcs hidle bytes => ?_,
    fun h => ?_, fun hrun hcs => ⟨fun hfetch => ?_, fun n hn => ⟨fun hbuffer => ?_, fun r hbuffer => ?_⟩⟩⟩,
    fun s hrun => ⟨fun reason code => ?_, fun n => ?_⟩⟩
  · simp [State.csFall, hrun]
  · simp [State.csFall, hrun]
  · rw [State.clockByte, h, Transaction.clock, ← h]
  · rw [State.clockByte, h]
    rfl
  · simp [State.clockByte, h, Transaction.clock]
  · simp [State.clockByte, h, Transaction.clock]
  · unfold State.csRise
    cases s.port.transaction <;> rfl
  · have hport : ({ s.port with csLow := false, transaction := .idle } : Port) = s.port := by rw [← hcs, ← hidle]
    rw [clockBytes_eq]
    cases hreset : s.resetLow with
    | true =>
      simp [State.csRise, State.csFall, hreset, hidle, clockAll_idle, Transaction.spells, hport]
    | false =>
      simp [State.csRise, State.csFall, hreset, clockAll_spells, hport]
  · unfold State.misoByte
    rcases h with h | h <;> simp [h]
  · rw [misoByte_of hrun hcs]
    cases ht : s.port.transaction with
    | fetch n => exact absurd ht (hfetch n)
    | _ => rfl
  · rw [misoByte_of hrun hcs, hn, hbuffer]
    exact congrArg some (drivenByte_none n)
  · rw [misoByte_of hrun hcs, hn, hbuffer]
    exact congrArg some (drivenByte_some r n)
  · change execCommandFrameRejected reason code s = _
    rw [execCommandFrameRejected, whileRunning_of hrun]
    cases code <;> rfl
  · refine ⟨_, exec_fetchTransaction hrun n, rfl, by simp [Port.fetch], fun hbuffer => ⟨?_, fun k hk => ?_⟩, fun r hbuffer => ⟨?_, fun k hk => ?_⟩⟩
    · simp [Port.fetch, hbuffer]
    · simp [Port.fetch, hbuffer, hk, drivenByte_none]
    · simp only [Port.fetch, hbuffer, fetchedWhole, responseFrame, decide_eq_true_eq]
      refine if_congr ?_ rfl rfl
      simp only [byteItem, List.length_append, List.length_singleton]
      omega
    · simp [Port.fetch, hbuffer, hk, drivenByte_some]

end Sys2Proof.Safety
end


section
/-! SUPPORT. What no event between frame starts changes: what is shown of a record (R36, R37, R40, R141), and the contents of a READY slot, which
no event writes at all (R77, R86). -/

namespace Sys2Proof.Machine
open Sys2Proof.Safety

/-! ### Records -/

/-- A record that is LIVE or armed keeps all but its staging and its freeze request, and an armed one all but its freeze request. -/
theorem RecordMove.shown {s : State} {c : Instr} {p : Placement} {b : Option Placement} (h : RecordMove s c (some p) b)
    (hc : c ≠ .resetnAssert) (hp : p.committed ≠ none ∨ p.armed = true) :
    ∃ q, b = some q ∧
      q = { p with staged := q.staged, armed := q.armed, retireStaged := q.retireStaged, freezeRequest := q.freezeRequest } ∧
      (p.armed = true → q = { p with freezeRequest := q.freezeRequest }) := by
  cases h with
  | same => exact ⟨p, rfl, rfl, fun _ => rfl⟩
  | amended harmed => exact ⟨_, rfl, rfl, fun h => by rw [harmed] at h; cases h⟩
  | freed harmed hnew =>
    rcases hp with h | h
    · exact absurd hnew h
    · rw [harmed] at h; cases h
  | retired harmed => exact ⟨_, rfl, rfl, fun h => by rw [harmed] at h; cases h⟩
  | armed named =>
    refine ⟨_, rfl, ?_, fun h => ?_⟩
    · unfold armRecord; split <;> rfl
    · unfold armRecord
      split
      · rw [← h]
      · rfl
  | requested r => exact ⟨_, rfl, rfl, fun _ => rfl⟩
  | disarmed _ hassert => exact absurd hassert hc

/-! ### READY slots -/

/-- What becomes of a READY slot `z`: where it stays READY its contents stay, and with a holder it stays READY with its holders. -/
def SlotKept (z w : Slot) : Prop :=
  (w.state = .ready → w.lines = z.lines ∧ w.geometry = z.geometry ∧ w.frameNumber = z.frameNumber) ∧
  (1 ≤ z.holders → w.state = .ready ∧ w.holders = z.holders)

theorem SlotKept.refl {z : Slot} (h : z.state = .ready) : SlotKept z z := ⟨fun _ => ⟨rfl, rfl, rfl⟩, fun _ => ⟨h, rfl⟩⟩

theorem SlotKept.unmark {z : Slot} (h : z.state = .ready) : SlotKept z z.unmark := by
  rw [Slot.unmark_ite]
  split
  · rename_i hfree
    exact ⟨fun hw => (nomatch hw), fun hz => by rw [hfree.2] at hz; cases hz⟩
  · exact ⟨fun _ => ⟨rfl, rfl, rfl⟩, fun _ => ⟨h, rfl⟩⟩

/-- Every READY slot of a context is kept. -/
def ReadyKept (c c' : InputContext) : Prop := ∀ k, (c.slots.get k).state = .ready → SlotKept (c.slots.get k) (c'.slots.get k)

theorem ReadyKept.of_slots {c c' : InputContext} (h : c'.slots = c.slots) : ReadyKept c c' := fun k hk => by rw [h]; exact .refl hk

/-- The slot of an open frame is FILLING, so a READY slot is another (R75). -/
theorem ready_not_open {c : InputContext} (hl : slotsLawful c = true) {k : SlotIndex} (hk : (c.slots.get k).state = .ready) :
    c.openFrame.bind OpenFrame.slot ≠ some k := fun he => by
  rw [((slotsLawful_iff.1 hl).2.2 k).2 he] at hk
  cases hk

theorem InputContext.restart_ready {c : InputContext} (hl : slotsLawful c = true) (x : SourceConfig) (m : MonitorState) :
    ReadyKept c { ({ c with config := x } : InputContext).restart with monitor := m } := by
  intro k hk
  have hget : ({ ({ c with config := x } : InputContext).restart with monitor := m }.slots.get k) =
      if c.openFrame.bind OpenFrame.slot = some k then .empty else (c.slots.get k).unmark := InputContext.restart_get _ k
  rw [hget, if_neg (ready_not_open hl hk)]
  exact .unmark hk

theorem InputContext.abandon_ready {c : InputContext} (hl : slotsLawful c = true) : ReadyKept c c.abandon := by
  intro k hk
  rw [InputContext.abandon_get, if_neg (ready_not_open hl hk)]
  exact .refl hk

theorem InputContext.ended_ready {c : InputContext} (hl : slotsLawful c = true) {f : OpenFrame} (hf : c.openFrame = some f) (good : Bool) :
    ReadyKept c (c.ended f good) := by
  intro k hk
  have hne : f.slot ≠ some k := by simpa [hf] using ready_not_open hl hk
  rw [InputContext.ended_get, if_neg hne]
  split
  · exact .refl hk
  · exact .unmark hk

theorem InputContext.endedEarly_ready {c : InputContext} (hl : slotsLawful c = true) : ReadyKept c c.endedEarly := by
  unfold InputContext.endedEarly
  cases hf : c.openFrame with
  | none => exact .of_slots rfl
  | some f => exact InputContext.ended_ready hl hf false

theorem InputContext.expired_ready {c : InputContext} (hl : slotsLawful c = true) (now : Time) : ReadyKept c (c.expired now) := by
  intro k hk
  rw [InputContext.expired_slots]
  cases hf : c.openFrame with
  | none => exact .refl hk
  | some f => exact InputContext.ended_ready hl hf false k hk

/-- A new frame takes a FREE slot: a slot that ended READY keeps its contents, and one that an early end freed is not READY again (R75). -/
theorem InputContext.frameStarted_ready {c : InputContext} (hl : slotsLawful c = true) (now : Time) (tag : Half) :
    ReadyKept c (c.frameStarted now tag) := by
  intro k hk
  obtain ⟨hcontents, hheld⟩ := InputContext.endedEarly_ready hl k hk
  have hget : (c.frameStarted now tag).slots.get k =
      if c.endedEarly.freeSlot = some k then
        (c.endedEarly.slots.get k).allocate (nextFrameNumber c.endedEarly.frameNumber) c.endedEarly.config.width c.endedEarly.config.height
      else c.endedEarly.slots.get k := by
    rw [InputContext.frameStarted, InputContext.firstFrame_eq]
    exact InputContext.beginFrame_get ..
  rw [hget]
  split
  · rename_i hfree
    refine ⟨fun h => (nomatch h), fun h => ?_⟩
    have hready := (hheld h).1
    rw [InputContext.freeSlot_eq_some hfree] at hready
    cases hready
  · exact ⟨hcontents, hheld⟩

theorem InputContext.takeLine_ready {c : InputContext} (hl : slotsLawful c = true) (n : Nat) (field : PixelField) :
    ReadyKept c (c.takeLine n field) := by
  cases hf : c.openFrame with
  | none => rw [InputContext.takeLine_closed hf]; exact .of_slots rfl
  | some f =>
    cases hpx : acceptedLine c.config f n field with
    | none => rw [InputContext.takeLine_discarded hf hpx]; exact .of_slots rfl
    | some px =>
      intro k hk
      have hne : f.slot ≠ some k := by simpa [hf] using ready_not_open hl hk
      rw [InputContext.takeLine_accepted hf hpx, InputContext.storedIn_get, if_neg hne]
      exact .refl hk

/-- Slots whose latches alone change keep their contents where they stay READY (R80, R81). -/
theorem SlotHeld.contents {z w : Slot} (h : SlotHeld z w) (hw : w.state = .ready) :
    w.lines = z.lines ∧ w.geometry = z.geometry ∧ w.frameNumber = z.frameNumber := by
  obtain rfl | h := h
  · cases hw
  · rw [h]; exact ⟨rfl, rfl, rfl⟩

/-- What a row does to the READY slots: a frame start and a RETIRE of a NEW record change holders alone, and any other row keeps them. -/
theorem Effect.ready_cases {s t : State} {c : Instr} (he : Effect s c t) (hc : c ≠ .resetnRelease) (hl : SlotLaw s) :
    (∀ i, ReadyKept (s.input i) (t.input i)) ∨
      (∀ r, SlotHeld (s.slot r) (t.slot r)) ∧ (isFrameStart c = true ∨ ¬ NewLaw s) := by
  have hlaw := slotLaw_iff.1 hl
  have same : ∀ {u : State}, (∀ i, u.input i = s.input i) → ∀ i, ReadyKept (s.input i) (u.input i) := fun hu i => .of_slots (by rw [hu])
  have one : ∀ {u : State} {i : InputId} {x : InputContext}, (∀ j, u.input j = if j = i then x else s.input j) →
      ReadyKept (s.input i) x → ∀ j, ReadyKept (s.input j) (u.input j) := by
    intro u i x hu hkept j
    rw [hu]
    split
    · rename_i hj; exact hj ▸ hkept
    · exact .of_slots rfl
  cases he with
  | resetReleased => exact absurd rfl hc
  | @domainStarted _ d hframe =>
    exact .inr ⟨fun r => (s.domainStart_storeStage holderRel_le d (.inl fun a b hab => (Nat.le_succ a).trans hab)).slots s.slot
      (fun r => .refl _) r, .inl hframe⟩
  | @freed _ _ _ h p body _ hp _ hnew =>
    by_cases hn : NewLaw s
    · obtain ⟨-, -, -, -, hlatch, -⟩ := newLaw_iff.1 hn h p hp hnew
      have hinputs : (s.freeRecord h).inputs = s.inputs := by rw [State.freeRecord_unlatched hp hlatch]
      have hsame : ∀ i, (s.freeRecord h).input i = s.input i := fun i => by rw [← State.inputs_get, ← State.inputs_get, hinputs]
      refine .inl fun i => .of_slots ?_
      rw [State.respond_input, hsame]
    · exact .inr ⟨fun r => (s.freeRecord_storeStage holderRel_le h).slots s.slot (fun r => .refl _) r, .inr hn⟩
  | resetAsserted => exact .inl fun i => by rw [s.assertReset_input]; exact InputContext.abandon_ready (hlaw i)
  | @sourceConfigured _ _ _ _ _ _ _ _ i x =>
    exact .inl (one (fun j => State.configured_input s i j x) (InputContext.restart_ready (hlaw i) x _))
  | @sourceRestarted _ i =>
    exact .inl (one (fun j => (State.restartSource_input ..).trans rfl) (InputContext.restart_ready (hlaw i) (s.input i).config _))
  | frameStarted => exact .inl (one (fun j => State.frameStart_input_eq ..) (InputContext.frameStarted_ready (hlaw _) _ _))
  | lineTaken => exact .inl (one (fun j => State.modInput_input ..) (InputContext.takeLine_ready (hlaw _) _ _))
  | frameEnded hf => exact .inl (one (fun j => State.endFrame_input_eq ..) (InputContext.ended_ready (hlaw _) hf _))
  | expired hdue => exact .inl (one (fun j => State.expire_input_eq ..) (InputContext.expired_ready (hlaw _) _))
  | unchanged => exact .inl (same fun i => rfl)
  | answered => exact .inl (same fun i => rfl)
  | opened | amended | freezeRequested | retired | screenConfigured | toneStored | linkEnabled | linkDisabled | linkReset | resetRenewed
  | domainSet | noticeTaken | masked | fetched | lineHanded | returnTaken | armed => exact .inl (same fun i => by simp)

end Sys2Proof.Machine

namespace Sys2Proof.Safety
open Sys2Proof.Machine

/-- Settles O38: the moves of one record, none of which reaches what is shown of it. -/
theorem betweenFrameStartsNothingShownChanges : Obligations.BetweenFrameStartsNothingShownChanges := by
  intro c s t hframe hassert hrelease h k p hp hshown
  obtain ⟨d, -, hstart⟩ | ⟨hrel, -⟩ | hmoves := (exec_effect h).record_cases
  · rw [hstart] at hframe; cases hframe
  · exact absurd hrel hrelease
  · exact (hp ▸ hmoves k).shown hassert hshown

/-- Settles O53: no row but the release writes a READY slot, and only a frame start gives up one that is held. -/
theorem readySlotsAreNotWritten : Obligations.ReadySlotsAreNotWritten := by
  intro c s t r hc hl h hready
  obtain hkept | ⟨hheld, hwhy⟩ := (exec_effect h).ready_cases hc hl
  · obtain ⟨hcontents, hholders⟩ := hkept r.input r.index hready
    exact ⟨hcontents, fun _ _ => hholders⟩
  · refine ⟨(hheld r).contents, fun hnew hframe => ?_⟩
    rcases hwhy with hstart | hn
    · rw [hstart] at hframe; cases hframe
    · exact absurd hnew hn

end Sys2Proof.Safety
end

section
/-! SUPPORT. Sampling and drawing: where a sample position lies, what the four neighbours of a position give, what one more placement does to
a pixel, and with them the statement on samples (O43). -/

namespace Sys2Proof.Machine

/-! ### The sample position (section 6.3) -/

/-- The quotient of R112: the position before the half pixel is taken off. -/
def sampleQuotient (x size target : Nat) : Nat := (2 * x + 1) * size * 65536 / (2 * target)

theorem samplePosition_eq (x size target : Nat) : samplePosition x size target = (sampleQuotient x size target : Int) - 32768 := rfl

/-- A target column lies within the source's width (R112). -/
theorem sampleQuotient_lt {x size target : Nat} (hsize : 1 ≤ size) (hx : x < target) : sampleQuotient x size target < size * 65536 := by
  have hcolumn : 2 * x + 1 < 2 * target := by omega
  have hscaled : (2 * x + 1) * (size * 65536) < 2 * target * (size * 65536) := Nat.mul_lt_mul_of_pos_right hcolumn (by omega)
  refine Nat.div_lt_of_lt_mul ?_
  rwa [Nat.mul_assoc]

/-- A position half a pixel before the source arises only at an enlargement (R114). -/
theorem size_lt_of_sampleQuotient_lt {x size target : Nat} (hx : x < target) (hq : sampleQuotient x size target < 32768) :
    size < target := by
  have hscaled : (2 * x + 1) * size * 65536 < 32768 * (2 * target) := (Nat.div_lt_iff_lt_mul (by omega)).mp hq
  have hsize : 1 * size ≤ (2 * x + 1) * size := Nat.mul_le_mul_right size (by omega)
  omega

/-- At 1:1 the quotient is that of the column's own middle (R113). -/
theorem sampleQuotient_same {x size : Nat} (hx : x < size) : sampleQuotient x size size = (2 * x + 1) * 32768 := by
  have hscaled : (2 * x + 1) * size * 65536 = (2 * x + 1) * 32768 * (2 * size) := by ring
  rw [sampleQuotient, hscaled, Nat.mul_div_cancel _ (by omega)]

/-- A weight counts 256ths (R112). -/
theorem sampleWeight_le (u : Int) : sampleWeight u ≤ 255 := by
  unfold sampleWeight sampleIndex
  omega

/-- The index of a position lies from −1 to the source size less one (R112). -/
theorem sampleIndex_bounds {x size target : Nat} (hsize : 1 ≤ size) (hx : x < target) :
    -1 ≤ sampleIndex (samplePosition x size target) ∧ sampleIndex (samplePosition x size target) ≤ size - 1 := by
  have hbelow := sampleQuotient_lt hsize hx
  rw [samplePosition_eq]
  unfold sampleIndex
  omega

/-- At 1:1 the index is the target column and the weight is 0 (R113). -/
theorem samplePosition_same {x size : Nat} (hx : x < size) :
    sampleIndex (samplePosition x size size) = x ∧ sampleWeight (samplePosition x size size) = 0 := by
  rw [samplePosition_eq, sampleQuotient_same hx]
  unfold sampleWeight sampleIndex
  omega

/-- A clamped index lies within the source, and is the nearest one to the index given (R114). -/
theorem clampIndex_spec {size : Nat} (hsize : 1 ≤ size) (i : Int) :
    clampIndex i size < size ∧ (0 ≤ i → i < size → clampIndex i size = i) ∧ (i < 0 → clampIndex i size = 0) ∧
      ((size : Int) ≤ i → clampIndex i size = size - 1) := by
  unfold clampIndex
  omega

theorem clampIndex_natCast {size x : Nat} (hx : x < size) : clampIndex (x : Int) size = x := by
  unfold clampIndex
  omega

theorem clampIndex_succ {size x : Nat} (hx : x < size) : clampIndex ((x : Int) + 1) size = min (x + 1) (size - 1) := by
  unfold clampIndex
  omega

/-! ### Bilinear interpolation (section 6.4) -/

@[simp] theorem mixSamples_none_left (w : Nat) (q : Option Colour) : mixSamples w none q = none := rfl

@[simp] theorem mixSamples_none_right (w : Nat) (p : Option Colour) : mixSamples w p none = none := by
  cases p <;> rfl

theorem mixSamples_some (w : Nat) (p q : Colour) :
    mixSamples w (some p) (some q) = some ⟨mix p.r q.r w, mix p.g q.g w, mix p.b q.b w⟩ := rfl

/-- Weight 0 gives the first of the two values (R113). -/
theorem mix_zero (p q : Nat) : mix p q 0 = p := by
  unfold mix
  omega

theorem mixSamples_zero (p q : Colour) : mixSamples 0 (some p) (some q) = some p := by
  rw [mixSamples_some, mix_zero, mix_zero, mix_zero]

/-- The four neighbours mixed, columns first (R115, R116). -/
def mixNeighbours (f g : Nat) (p q u v : Option Colour) : Option Colour := mixSamples g (mixSamples f p q) (mixSamples f u v)

/-- One void neighbour voids the sample, whatever its weight (R116). -/
theorem mixNeighbours_void (f g : Nat) {p q u v : Option Colour} (hvoid : p = none ∨ q = none ∨ u = none ∨ v = none) :
    mixNeighbours f g p q u v = none := by
  obtain rfl | rfl | rfl | rfl := hvoid <;> simp [mixNeighbours]

/-- At weights 0 the sample is the first neighbour, where all four are stored (R113). -/
theorem mixNeighbours_zero {p q u v : Option Colour} (hp : p ≠ none) (hq : q ≠ none) (hu : u ≠ none) (hv : v ≠ none) :
    mixNeighbours 0 0 p q u v = p := by
  obtain ⟨p, rfl⟩ := Option.ne_none_iff_exists'.mp hp
  obtain ⟨q, rfl⟩ := Option.ne_none_iff_exists'.mp hq
  obtain ⟨u, rfl⟩ := Option.ne_none_iff_exists'.mp hu
  obtain ⟨v, rfl⟩ := Option.ne_none_iff_exists'.mp hv
  rw [mixNeighbours, mixSamples_zero, mixSamples_zero, mixSamples_zero]

/-- A sample is the mix of what the slot holds at the four clamped neighbours (R112 to R116). -/
theorem sampleSlot_eq {z : Slot} {ox oy ws hs : Nat} {r : Rect} {x y : Nat} {read : Int → Int → Option Colour}
    (hread : ∀ column line, read column line = z.read (ox + clampIndex column ws) (oy + clampIndex line hs)) :
    sampleSlot z ox oy ws hs r x y =
      mixNeighbours (sampleWeight (samplePosition x ws r.w)) (sampleWeight (samplePosition y hs r.h))
        (read (sampleIndex (samplePosition x ws r.w)) (sampleIndex (samplePosition y hs r.h)))
        (read (sampleIndex (samplePosition x ws r.w) + 1) (sampleIndex (samplePosition y hs r.h)))
        (read (sampleIndex (samplePosition x ws r.w)) (sampleIndex (samplePosition y hs r.h) + 1))
        (read (sampleIndex (samplePosition x ws r.w) + 1) (sampleIndex (samplePosition y hs r.h) + 1)) := by
  simp only [hread]
  rfl

/-- At 1:1 the four neighbours are those of the pixel itself, at weights 0 (R113, R114). -/
theorem sampleSlot_same (z : Slot) (ox oy : Nat) {r : Rect} {x y : Nat} (hx : x < r.w) (hy : y < r.h) :
    sampleSlot z ox oy r.w r.h r x y =
      mixNeighbours 0 0 (z.read (ox + x) (oy + y)) (z.read (ox + min (x + 1) (r.w - 1)) (oy + y))
        (z.read (ox + x) (oy + min (y + 1) (r.h - 1))) (z.read (ox + min (x + 1) (r.w - 1)) (oy + min (y + 1) (r.h - 1))) := by
  obtain ⟨hcolumn, hcolumnWeight⟩ := samplePosition_same hx
  obtain ⟨hline, hlineWeight⟩ := samplePosition_same hy
  rw [sampleSlot_eq fun _ _ => rfl, hcolumn, hcolumnWeight, hline, hlineWeight, clampIndex_natCast hx, clampIndex_natCast hy,
    clampIndex_succ hx, clampIndex_succ hy]

/-! ### One pixel (sections 6.1, 6.6) -/

theorem composedPixel_nil (s : State) (background : Colour) (column line : Nat) : composedPixel s background [] column line = background := rfl

/-- A further placement in drawing order is drawn over what the ones before it left (R110). -/
theorem composedPixel_append (s : State) (background : Colour) (draws : List DrawParams) (p : DrawParams) (column line : Nat) :
    composedPixel s background (draws ++ [p]) column line = DrawParams.draw s column line (composedPixel s background draws column line) p := by
  simp [composedPixel]

theorem Rect.holds_iff (r : Rect) (column line : Nat) :
    r.holds column line = true ↔ (r.x ≤ column ∧ column < r.x + r.w) ∧ r.y ≤ line ∧ line < r.y + r.h := by
  simp [Rect.holds, and_assoc]

/-- A placement that does not hold the pixel, or samples nothing, leaves it (R108, R110). -/
theorem DrawParams.draw_outside {s : State} {column line : Nat} {p : DrawParams} (d : Colour)
    (hout : ¬ p.target.holds column line = true ∨ p.sampling = .nothing) : DrawParams.draw s column line d p = d := by
  rw [DrawParams.draw, if_neg]
  simpa [imp_iff_not_or] using hout

/-- A keyed-out sample leaves the pixel (R118). -/
theorem DrawParams.draw_keyedOut {s : State} {column line : Nat} {p : DrawParams} {k : Key} (d : Colour) (hkey : p.key = some k)
    (hout : k.keysOut (p.sample s column line) = true) : DrawParams.draw s column line d p = d := by
  simp [DrawParams.draw, hkey, hout]

/-- A placement that holds the pixel, samples and is not keyed out is blended in, a void sample in the fill colour (R119, R120). -/
theorem DrawParams.draw_blended {s : State} {column line : Nat} {p : DrawParams} (d : Colour) (hheld : p.target.holds column line = true)
    (hsampling : p.sampling ≠ .nothing) (hkey : ∀ k, p.key = some k → k.keysOut (p.sample s column line) = false) :
    DrawParams.draw s column line d p = blendColour p.blend p.opacity ((p.sample s column line).getD p.fill) d := by
  cases hk : p.key with
  | none => simp [DrawParams.draw, hheld, hsampling, hk]
  | some k => simp [DrawParams.draw, hheld, hsampling, hk, hkey k hk]

/-- The value of one column of the line composed (R110, R123, R124). -/
theorem composeLine_getElem? (s : State) (k : Composer) (m : Composition) {column : Nat} (hcolumn : column < m.width) :
    (composeLine s k m)[column]? = some (outputColour k.gain m.depth (composedPixel s k.background m.draws column m.nextLine)) := by
  simp [composeLine, hcolumn]

end Sys2Proof.Machine

namespace Sys2Proof.Safety

open Sys2Proof.Machine

/-- Settles O43: the position by its quotient, the sample by its four neighbours, and the pixel by the placement drawn last. -/
theorem samplesStayInTheSource : Obligations.SamplesStayInTheSource := by
  refine ⟨?_, ?_, ?_, ?_⟩
  case refine_1 =>
    intro x size target hsize hx
    have hbounds := sampleIndex_bounds hsize hx
    refine ⟨rfl, hbounds.1, hbounds.2, sampleWeight_le _, fun hbefore => ?_, clampIndex_spec hsize, ?_⟩
    · refine size_lt_of_sampleQuotient_lt hx ?_
      rw [samplePosition_eq, sampleIndex] at hbefore
      omega
    · rintro rfl
      exact samplePosition_same hx
  case refine_2 =>
    rintro z ox oy ws hs r x y i j f g read rfl rfl rfl rfl hread
    refine ⟨fun hvoid => (sampleSlot_eq hread).trans (mixNeighbours_void _ _ hvoid), ?_⟩
    intro p q u v row hp hq hu hv hrow
    have hmix : row = mix := by
      funext a b w
      exact hrow a b w
    rw [sampleSlot_eq hread, hp, hq, hu, hv, hmix]
    rfl
  case refine_3 =>
    intro z ox oy x y r hx hy
    rw [sampleSlot_same z ox oy hx hy]
    exact ⟨fun hstored => mixNeighbours_zero (hstored _ (by simp)) (hstored _ (by simp)) (hstored _ (by simp)) (hstored _ (by simp)),
      fun hvoid => mixNeighbours_void 0 0 (by simpa [eq_comm] using hvoid)⟩
  case refine_4 =>
    rintro s background d draws column line rfl
    refine ⟨composedPixel_nil .., ?_, ?_⟩
    · rintro k m rfl rfl rfl hcolumn
      exact composeLine_getElem? s k m hcolumn
    · intro p held hheld
      rw [← Rect.holds_iff] at hheld
      rw [composedPixel_append]
      refine ⟨fun hout => DrawParams.draw_outside _ (hout.imp_left fun hnot h => hnot (hheld.mpr h)), ?_⟩
      intro sample hin hsample
      have hsampled : p.sampling ≠ .nothing ∧ p.sample s column line = sample := by
        obtain ⟨hsolid, rfl⟩ | ⟨ref, ox, oy, ws, hs, hslot, rfl⟩ := hsample
        · simp [DrawParams.sample, hsolid]
        · simp [DrawParams.sample, hslot]
      obtain ⟨hsampling, rfl⟩ := hsampled
      refine ⟨fun ⟨k, hkey, hout⟩ => DrawParams.draw_keyedOut _ hkey hout, ?_⟩
      rintro hkey v rfl
      exact DrawParams.draw_blended _ (hheld.mp hin) hsampling hkey

end Sys2Proof.Safety
end

section
/-! SUPPORT. The frame a composer begins (R107, R108): what its drawing parameters are, from the state the whole frame start leaves; and what
application and composition read of the links (R38, R39): the screen configuration, the tone and the pending choice alone (O46). -/

namespace Sys2Proof.Machine
open Sys2Proof.Safety

/-! ### A screen's records through a domain frame start -/

/-- The two states hold the same records on the screen. -/
def State.SameOn (s t : State) (sc : Screen) : Prop := ∀ h q, q.screen = sc → (t.placement h = some q ↔ s.placement h = some q)

theorem State.SameOn.liveList {s t : State} {sc : Screen} (h : s.SameOn t sc) : t.liveList sc = s.liveList sc :=
  State.liveList_congr fun k _ => exists_congr fun q =>
    ⟨fun ⟨hq, hsc, hrest⟩ => ⟨(h k q hsc).1 hq, hsc, hrest⟩, fun ⟨hq, hsc, hrest⟩ => ⟨(h k q hsc).2 hq, hsc, hrest⟩⟩

/-- The composer of one screen leaves the records of another (R39). -/
theorem State.composerStart_sameOn (s : State) {sc x : Screen} (n : Nat) (hx : x ≠ sc) : s.SameOn (s.composerStart sc n) x := by
  intro h q hsc
  have hkept : ∀ p, s.placement h = some p → p.screen = x → (s.composerStart sc n).placement h = some p := fun p hp hp' => by
    rw [← State.record_body, State.composerStart_record_other n, State.record_body, hp]
    intro p' hp2
    rw [← Option.some.inj (hp.symm.trans hp2), hp']
    exact hx
  refine ⟨fun hq => ?_, fun hq => hkept q hq hsc⟩
  obtain ⟨p, hp, hscreen, -⟩ := State.composerStart_screen hq
  rw [hp, ← hkept p hp (hscreen ▸ hsc), hq]

/-- At its domain's frame start a composer is left what its own part made of the state handed to it (R39, R90). -/
theorem State.domainStart_composer_own (s : State) (sc : Screen) :
    (s.domainStart (screenDomain sc)).composer sc =
      ((s.handedTo sc).composerStart sc (s.newFrame (screenDomain sc))).composer sc ∧
    ((s.handedTo sc).composerStart sc (s.newFrame (screenDomain sc))).SameOn (s.domainStart (screenDomain sc)) sc ∧
    (s.handedTo sc).link sc = s.link sc ∧ (s.handedTo sc).geometry = s.geometry := by
  have hcomposer : (s.domainStart (screenDomain sc)).composer sc =
      (((s.domainWork (screenDomain sc)).composerStart (domainScreens (screenDomain sc)).1 (s.newFrame (screenDomain sc))).composerStart
        (domainScreens (screenDomain sc)).2 (s.newFrame (screenDomain sc))).composer sc := by
    simp [State.domainStart, State.handFrameStart, State.newFrame]
  have hplacement := s.domainStart_placement (screenDomain sc)
  have hgeometry : (s.domainWork (screenDomain sc)).geometry = s.geometry := funext fun i => by simp [State.geometry]
  have hlink : (s.domainWork (screenDomain sc)).link sc = s.link sc := by simp
  unfold State.handedTo
  obtain hfirst | hsecond := screenDomain_eq_iff.1 (rfl : screenDomain sc = screenDomain sc)
  · have hne : sc ≠ (domainScreens (screenDomain sc)).2 := fun he => domainScreens_ne _ (hfirst.symm.trans he)
    rw [if_pos hfirst]
    refine ⟨by rw [hcomposer, State.composerStart_composer_ne _ _ hne, ← hfirst], ?_, hlink, hgeometry⟩
    intro h q hsc
    rw [hplacement, ← hfirst]
    exact State.composerStart_sameOn _ _ hne h q hsc
  · have hne : sc ≠ (domainScreens (screenDomain sc)).1 := fun he => domainScreens_ne _ (he.symm.trans hsecond)
    rw [if_neg hne]
    refine ⟨by rw [hcomposer, ← hsecond]; rfl, ?_, ?_, funext fun x => ?_⟩
    · intro h q _
      rw [hplacement, ← hsecond]
      rfl
    · obtain ⟨-, -, -, -, hother⟩ := (s.domainWork (screenDomain sc)).composerStart_link_cases (domainScreens (screenDomain sc)).1 sc
        ((s.domainWork (screenDomain sc)).domain (screenDomain sc)).frameNumber
      exact (hother hne).trans hlink
    · have hsame := (s.domainWork (screenDomain sc)).composerStart_sameInputs (domainScreens (screenDomain sc)).1
        ((s.domainWork (screenDomain sc)).domain (screenDomain sc)).frameNumber x
      rw [← congrFun hgeometry x]
      unfold State.geometry
      rw [hsame]

/-! ### The frame begun -/

/-- The frame a composer begins: the drawing parameters of its live list, as its own frame start leaves it (R107, R108). -/
theorem State.composerStart_composition (s : State) (sc : Screen) (n : Nat) :
    ((s.composerStart sc n).composer sc).composition =
      some ⟨n, (s.link sc).config.width, (s.link sc).config.height, (s.link sc).config.depth,
        ((s.composerStart sc n).liveList sc).filterMap (s.composerStart sc n).drawParams, 0⟩ := by
  have hbegun : ∀ t : State, ((t.beginComposition sc n).composer sc).composition =
      some ⟨n, (t.link sc).config.width, (t.link sc).config.height, (t.link sc).config.depth,
        ((t.beginComposition sc n).liveList sc).filterMap (t.beginComposition sc n).drawParams, 0⟩ := fun t => by
    simp only [State.beginComposition, State.modComposer_composer, if_true]
    rfl
  obtain ⟨k, b, -, hlink, -⟩ := s.composerStart_link_cases sc sc n
  have hconfig : ((s.beforeViews sc n).decideViews sc).link sc = (s.composerStart sc n).link sc := by simp [State.composerStart, State.beforeViews]
  refine (hbegun ((s.beforeViews sc n).decideViews sc)).trans ?_
  rw [hconfig, hlink]
  rfl

/-- A record in a screen's live list after its composer's frame start was decided there (R126). -/
theorem State.composerStart_decided {s : State} {sc : Screen} {n : Nat} {h : Handle} {q : Placement}
    (hq : (s.composerStart sc n).placement h = some q) (hsc : q.screen = sc) (hlive : q.committed ≠ none) : q.view ≠ none := by
  rw [State.composerStart_placement] at hq
  split at hq
  · obtain ⟨x, -, rfl⟩ := Option.map_eq_some_iff.1 hq
    cases hm : x.committed with
    | none => simp [Placement.decided, hm] at hlive
    | some m =>
      rw [Placement.decided_eq _ hm]
      exact Option.some_ne_none _
  · rename_i hmem
    exact absurd (State.mem_liveList_iff.2 ⟨q, hq, hsc, hlive⟩) hmem

theorem State.drawParams_congr {s t : State} {h : Handle} (hp : t.placement h = s.placement h) (hg : ∀ i, t.geometry i = s.geometry i) :
    t.drawParams h = s.drawParams h := by
  have hsampling : ∀ p m, t.viewSampling p m = s.viewSampling p m := by
    intro p m
    unfold State.viewSampling State.ownSampling State.sourceArea
    simp only [hg]
  unfold State.drawParams
  simp only [hp, hsampling]

theorem State.drawParams_of {s : State} {h : Handle} {p : Placement} {m : Image} (hp : s.placement h = some p) (hm : p.committed = some m) :
    s.drawParams h = some ⟨h, m.target, s.viewSampling p m, p.viewKey m, m.opacity, m.blend, m.fill⟩ := by
  unfold State.drawParams
  rw [hp]
  dsimp only
  rw [hm]

/-- A list read through a function that answers on each of its members keeps its places. -/
theorem filterMap_places {α β : Type} {f : α → Option β} {l : List α} (h : ∀ a ∈ l, f a ≠ none) :
    (l.filterMap f).length = l.length ∧ ∀ n : Nat, (l.filterMap f)[n]? = l[n]?.bind f := by
  induction l with
  | nil => simp
  | cons a l ih =>
    obtain ⟨b, hb⟩ := Option.ne_none_iff_exists'.1 (h a List.mem_cons_self)
    obtain ⟨hlength, hplaces⟩ := ih fun x hx => h x (List.mem_cons_of_mem _ hx)
    rw [List.filterMap_cons_some hb]
    refine ⟨by simp [hlength], fun n => ?_⟩
    cases n with
    | zero => simp [hb]
    | succ n => simpa using hplaces n

/-- A due frame start begins a frame of each composer of its domain, with the drawing parameters of its live list (R107, R108). -/
theorem State.domainStart_composition (s : State) (sc : Screen) :
    ((s.domainStart (screenDomain sc)).composer sc).composition =
      some ⟨s.newFrame (screenDomain sc), (s.link sc).config.width, (s.link sc).config.height, (s.link sc).config.depth,
        ((s.domainStart (screenDomain sc)).liveList sc).filterMap (s.domainStart (screenDomain sc)).drawParams, 0⟩ := by
  obtain ⟨hcomposer, hsame, hlink, hgeometry⟩ := s.domainStart_composer_own sc
  rw [hcomposer, State.composerStart_composition, hlink, hsame.liveList]
  congr 2
  refine List.filterMap_congr fun h hh => State.drawParams_congr ?_ fun i => ?_
  · obtain ⟨q, hq, hsc, -⟩ := State.mem_liveList_iff.1 hh
    rw [hq, (hsame h q hsc).2 hq]
  · rw [s.domainStart_geometry, ← hgeometry]
    unfold State.geometry
    rw [State.composerStart_sameInputs]

/-! ### What a view samples (R108) -/

theorem State.viewSampling_hidden (s : State) {p : Placement} (m : Image) (h : p.view = some .hidden) : s.viewSampling p m = .nothing := by
  simp [State.viewSampling, h]

theorem State.viewSampling_filled (s : State) {p : Placement} (m : Image) (h : p.view = some .filled) : s.viewSampling p m = .solid := by
  simp [State.viewSampling, h]

theorem State.viewSampling_alternate (s : State) {p : Placement} {m : Image} {i : InputId} {r : SlotRef} (h : p.view = some .alternate)
    (hm : m.alternate = some i) (hr : p.latched = some r) :
    s.viewSampling p m = .slot r 0 0 (s.input i).config.width (s.input i).config.height := by
  simp [State.viewSampling, h, hm, hr, slotSampling, State.geometry]

theorem State.viewSampling_own (s : State) {p : Placement} (m : Image)
    (h : p.view = some .showing ∨ p.view = some .holding ∨ p.view = some .frozen) : s.viewSampling p m = s.ownSampling p m := by
  obtain h | h | h := h <;> simp [State.viewSampling, h]

theorem State.ownSampling_solid (s : State) (p : Placement) {m : Image} (h : m.source = .solid) : s.ownSampling p m = .solid := by
  simp [State.ownSampling, h]

theorem State.ownSampling_input (s : State) {p : Placement} {m : Image} {i : InputId} {r : SlotRef} (h : m.source = .input i)
    (hr : p.latched = some r) : s.ownSampling p m =
      .slot r (m.sourceRect.getD ⟨0, 0, (s.input i).config.width, (s.input i).config.height⟩).x
        (m.sourceRect.getD ⟨0, 0, (s.input i).config.width, (s.input i).config.height⟩).y
        (m.sourceRect.getD ⟨0, 0, (s.input i).config.width, (s.input i).config.height⟩).w
        (m.sourceRect.getD ⟨0, 0, (s.input i).config.width, (s.input i).config.height⟩).h := by
  cases hrect : m.sourceRect <;> simp [State.ownSampling, h, hr, slotSampling, State.sourceArea, hrect, State.geometry]

theorem Placement.viewKey_filled {p : Placement} (m : Image) (h : p.view = some .filled) : p.viewKey m = none := if_pos h

theorem Placement.viewKey_own {p : Placement} (m : Image) (h : p.view ≠ some .filled) : p.viewKey m = m.key := if_neg h

/-! ### What a composer's frame start reads of the links -/

/-- An operation that neither reads nor writes the links. -/
def BlindToLinks (f : State → State) : Prop := ∀ (s : State) (links : PerScreen LinkContext), f { s with links := links } = { f s with links := links }

theorem BlindToLinks.id : BlindToLinks fun s => s := fun _ _ => rfl

theorem BlindToLinks.comp {f g : State → State} (hg : BlindToLinks g) (hf : BlindToLinks f) : BlindToLinks fun s => g (f s) := fun s links => by
  dsimp only
  rw [hf, hg]

theorem BlindToLinks.foldl {f : State → Handle → State} (hf : ∀ h, BlindToLinks fun s => f s h) (l : List Handle) :
    BlindToLinks fun s => l.foldl f s := by
  induction l with
  | nil => exact .id
  | cons h l ih => exact ih.comp (hf h)

theorem blind_raise (k : NoticeKey) : BlindToLinks fun s => s.raise k := fun s links => by
  unfold State.raise
  dsimp only
  split <;> rfl

theorem blind_raiseSome (k : Option NoticeKey) : BlindToLinks fun s => s.raiseSome k := by
  cases k with
  | none => exact .id
  | some k => exact blind_raise k

theorem blind_modPlacement (h : Handle) (f : Placement → Placement) : BlindToLinks fun s => s.modPlacement h f := fun s links => by
  change (match s.placement h with | some p => _ | none => _) = { s.modPlacement h f with links := links }
  unfold State.modPlacement
  cases s.placement h <;> rfl

theorem blind_moveHolder (before after : Option SlotRef) : BlindToLinks fun s => s.moveHolder before after := fun s links => by
  unfold State.moveHolder
  dsimp only
  split_ifs
  · rfl
  · cases after <;> cases before <;> rfl

theorem blind_setLatch (h : Handle) (r : Option SlotRef) : BlindToLinks fun s => s.setLatch h r := fun s links => by
  have hplacement : ({ s with links := links } : State).placement h = s.placement h := rfl
  unfold State.setLatch
  dsimp only
  rw [hplacement]
  cases s.placement h with
  | none => rfl
  | some p => exact (blind_modPlacement h _).comp (blind_moveHolder p.latched r) s links

theorem blind_sourceChanged (h : Handle) : BlindToLinks fun s => s.sourceChanged h := (blind_modPlacement h _).comp (blind_setLatch h none)

theorem blind_freeRecord (h : Handle) : BlindToLinks fun s => s.freeRecord h :=
  BlindToLinks.comp (g := fun s => (s.withdrawViews h).setBody h none) (fun _ _ => rfl) (blind_setLatch h none)

theorem blind_applyRecord (n : Nat) (h : Handle) : BlindToLinks fun s => State.applyRecord n s h := fun s links => by
  have hplacement : ({ s with links := links } : State).placement h = s.placement h := rfl
  unfold State.applyRecord
  dsimp only
  rw [hplacement]
  cases s.placement h with
  | none => rfl
  | some p =>
    dsimp only
    split_ifs
    · exact blind_freeRecord h s links
    · cases p.committed with
      | none => exact blind_modPlacement h _ s links
      | some m =>
        dsimp only
        split_ifs
        · exact blind_modPlacement h _ s links
        · exact (blind_sourceChanged h).comp (blind_modPlacement h _) s links

theorem blind_renumber (n : Nat) (l : List Handle) : BlindToLinks fun s => s.renumber n l := by
  induction l generalizing n with
  | nil => exact .id
  | cons h l ih => exact (ih (n + 1)).comp (blind_modPlacement h _)

theorem blind_applyArmed (sc : Screen) (n : Nat) : BlindToLinks fun s => s.applyArmed sc n := fun s links => by
  have harmed : ({ s with links := links } : State).handlesOn sc Placement.armed = s.handlesOn sc Placement.armed := rfl
  unfold State.applyArmed
  dsimp only
  rw [harmed]
  cases s.handlesOn sc Placement.armed with
  | nil => rfl
  | cons a l =>
    dsimp only
    have hfold : (a :: l).foldl (State.applyRecord n) { s with links := links } =
        { (a :: l).foldl (State.applyRecord n) s with links := links } :=
      BlindToLinks.foldl (fun h => blind_applyRecord n h) (a :: l) s links
    have hwritten : BlindToLinks fun s => s.modComposer sc fun k => { k with lastApplied := n } := fun _ _ => rfl
    rw [hfold]
    exact ((blind_raise _).comp (hwritten.comp (blind_renumber 0 _))) _ links

theorem blind_applyChoice (sc : Screen) (h : Handle) (m : Image) (i : InputId) : BlindToLinks fun s => s.applyChoice sc h m i := by
  have hadvance : BlindToLinks fun s => s.advanceGeneration h := fun _ _ => rfl
  have hchosen := hadvance.comp (blind_modPlacement h (Placement.choose i))
  unfold State.applyChoice
  dsimp only
  split_ifs
  · exact (blind_raise _).comp hchosen
  · exact (blind_raise _).comp ((blind_sourceChanged h).comp hchosen)

theorem blind_takeFreeze (h : Handle) : BlindToLinks fun s => s.takeFreeze h := fun s links => by
  have hplacement : ({ s with links := links } : State).placement h = s.placement h := rfl
  unfold State.takeFreeze
  dsimp only
  rw [hplacement]
  cases s.placement h with
  | none => rfl
  | some p =>
    dsimp only
    cases p.freezeRequest with
    | none => rfl
    | some r =>
      cases r with
      | thaw => exact blind_modPlacement h _ s links
      | freeze =>
        dsimp only
        split_ifs
        · exact (blind_setLatch h none).comp (blind_modPlacement h _) s links
        · exact blind_modPlacement h _ s links

theorem blind_decideView (h : Handle) : BlindToLinks fun s => s.decideView h := fun s links => by
  have hplacement : ({ s with links := links } : State).placement h = s.placement h := rfl
  have hanswer : ({ s with links := links } : State).answer = s.answer := rfl
  unfold State.decideView
  dsimp only
  rw [hplacement, hanswer]
  cases s.placement h with
  | none => rfl
  | some p =>
    dsimp only
    cases p.committed with
    | none => rfl
    | some m => exact (blind_raiseSome _).comp ((blind_modPlacement h _).comp (blind_setLatch h _)) s links

theorem blind_takeFreezes (sc : Screen) : BlindToLinks fun s => s.takeFreezes sc := fun s links =>
  BlindToLinks.foldl blind_takeFreeze (s.liveList sc) s links

theorem blind_decideViews (sc : Screen) : BlindToLinks fun s => s.decideViews sc := fun s links =>
  BlindToLinks.foldl blind_decideView (s.liveList sc) s links

/-- States that differ in nothing but the links' own work: state, runs, records and counters (R38). -/
structure LinksAlike (s t : State) : Prop where
  rest : t = { s with links := t.links }
  read : ∀ x, (t.link x).config = (s.link x).config ∧ (t.link x).tone = (s.link x).tone ∧
    (t.link x).pendingChoice = (s.link x).pendingChoice

theorem LinksAlike.map {s t : State} (h : LinksAlike s t) {f : State → State} (hf : BlindToLinks f) : LinksAlike (f s) (f t) := by
  have hkept : ∀ u : State, (f u).links = u.links := fun u => (congrArg State.links (hf u u.links)).trans rfl
  have hlink : ∀ u x, (f u).link x = u.link x := fun u x => congrArg (fun l : PerScreen LinkContext => l.get x) (hkept u)
  refine ⟨?_, fun x => by rw [hlink, hlink]; exact h.read x⟩
  rw [hkept, ← hf, ← h.rest]

/-- The pending choice is taken alike on both states (R46). -/
theorem LinksAlike.takeChoice {s t : State} (h : LinksAlike s t) (sc : Screen) : LinksAlike (s.takeChoice sc) (t.takeChoice sc) := by
  have hmod : ∀ f : LinkContext → LinkContext, (∀ l, (f l).config = l.config ∧ (f l).tone = l.tone) →
      (∀ l k, l.pendingChoice = k.pendingChoice → (f l).pendingChoice = (f k).pendingChoice) →
      ∀ u v, LinksAlike u v → LinksAlike (u.modLink sc f) (v.modLink sc f) := by
    intro f hf hchoice u v huv
    refine ⟨?_, fun x => ?_⟩
    · conv_lhs => rw [huv.rest]
      rfl
    · obtain ⟨hconfig, htone, hpending⟩ := huv.read x
      rw [State.modLink_link, State.modLink_link]
      split
      · rename_i hx
        rw [hx] at hconfig htone hpending
        exact ⟨by rw [(hf _).1, (hf _).1, hconfig], by rw [(hf _).2, (hf _).2, htone], hchoice _ _ hpending⟩
      · exact ⟨hconfig, htone, hpending⟩
  unfold State.takeChoice
  split_ifs
  · rw [(h.read sc).2.2]
    cases (s.link sc).pendingChoice with
    | none => exact h
    | some k =>
      have htaken := hmod (fun l => { l with pendingChoice := none }) (fun _ => ⟨rfl, rfl⟩) (fun _ _ _ => rfl) _ _ h
      have hreach : (t.modLink sc fun l => { l with pendingChoice := none }).reachable sc k =
          (s.modLink sc fun l => { l with pendingChoice := none }).reachable sc k := by
        rw [htaken.rest]
        rfl
      dsimp only
      rw [hreach]
      cases (s.modLink sc fun l => { l with pendingChoice := none }).reachable sc k with
      | none => exact hmod (fun l => { l with badChoices := satSucc 65535 l.badChoices }) (fun _ => ⟨rfl, rfl⟩) (fun _ _ e => e) _ _ htaken
      | some reached =>
        obtain ⟨h, m, i⟩ := reached
        exact htaken.map (blind_applyChoice sc h m i)
  · exact h

theorem LinksAlike.takeTone {s t : State} (h : LinksAlike s t) (sc : Screen) : LinksAlike (s.takeTone sc) (t.takeTone sc) := by
  refine ⟨?_, fun x => h.read x⟩
  unfold State.takeTone
  rw [(h.read sc).2.1]
  conv_lhs => rw [h.rest]
  rfl

theorem LinksAlike.beginComposition {s t : State} (h : LinksAlike s t) (sc : Screen) (n : Nat) :
    LinksAlike (s.beginComposition sc n) (t.beginComposition sc n) := by
  refine ⟨?_, fun x => h.read x⟩
  unfold State.beginComposition
  dsimp only
  rw [(h.read sc).1]
  conv_lhs => rw [h.rest]
  rfl

/-- Application and composition read of the links the screen configuration, the tone and the pending choice alone (R38, R39, R107). -/
theorem LinksAlike.composerStart {s t : State} (h : LinksAlike s t) (sc : Screen) (n : Nat) :
    LinksAlike (s.composerStart sc n) (t.composerStart sc n) :=
  (((((h.map (blind_applyArmed sc n)).takeChoice sc).map (blind_takeFreezes sc)).takeTone sc).map (blind_decideViews sc)).beginComposition sc n

end Sys2Proof.Machine

namespace Sys2Proof.Safety

open Sys2Proof.Machine

/-- Settles O46: the frame begun is that of the composer's own frame start, and that start reads three fields of the link. -/
theorem compositionIgnoresTheLinkState : Obligations.CompositionIgnoresTheLinkState := by
  refine ⟨?_, ?_⟩
  · intro s t sc hrun hdue ht
    rw [exec_domainFrameStart hrun hdue] at ht
    obtain rfl := Host.Outcome.next.inj ht
    have hframe : s.newFrame (screenDomain sc) = ((s.domainStart (screenDomain sc)).domain (screenDomain sc)).frameNumber := by
      simp [State.newFrame, State.domainStart]
    obtain ⟨-, hsame, -⟩ := s.domainStart_composer_own sc
    obtain ⟨hlength, hplaces⟩ := filterMap_places (f := (s.domainStart (screenDomain sc)).drawParams)
      (l := (s.domainStart (screenDomain sc)).liveList sc) fun h hh => by
        obtain ⟨q, hq, -, hlive⟩ := State.mem_liveList_iff.1 hh
        obtain ⟨m, hm⟩ := Option.ne_none_iff_exists'.1 hlive
        rw [State.drawParams_of hq hm]
        exact Option.some_ne_none _
    refine ⟨_, s.domainStart_composition sc, hframe, by rw [State.domainStart_config], rfl, hlength, ?_⟩
    intro n h q m hn hq hm
    obtain ⟨q', hq', hsc, -⟩ := State.mem_liveList_iff.1 (List.mem_of_getElem? hn)
    obtain rfl := Option.some.inj (hq.symm.trans hq')
    refine ⟨State.composerStart_decided ((hsame h q hsc).1 hq) hsc (by rw [hm]; exact Option.some_ne_none _), _,
      by rw [hplaces, hn, Option.bind_some, State.drawParams_of hq hm], rfl, rfl, rfl, rfl, rfl, State.viewSampling_hidden _ m,
      fun hv => ⟨State.viewSampling_filled _ m hv, Placement.viewKey_filled m hv⟩, fun _ hv => Placement.viewKey_own m hv,
      fun hv i r hi hr => State.viewSampling_alternate _ hv hi hr, fun hv => ?_⟩
    rw [State.viewSampling_own _ m hv]
    refine ⟨State.ownSampling_solid _ q, ?_⟩
    rintro i r area hi hr rfl
    exact State.ownSampling_input _ hi hr
  · rintro s sc x frame l hconfig htone hpending u v rfl rfl
    have halike : LinksAlike s { s with links := s.links.set x l } := by
      refine ⟨rfl, fun y => ?_⟩
      have hset : ({ s with links := s.links.set x l } : State).link y = if y = x then l else s.link y := PerScreen.get_set ..
      rw [hset]
      split
      · rename_i hy
        rw [hy]
        exact ⟨hconfig, htone, hpending⟩
      · exact ⟨rfl, rfl, rfl⟩
    have hrest := (halike.composerStart sc frame).rest
    exact ⟨by rw [hrest], by rw [hrest], by rw [hrest], by rw [hrest], by rw [hrest]⟩

end Sys2Proof.Safety
end

section
/-! SUPPORT. The ranges of what is drawn (R124): images and tones by the clamping of the values written, pixels by input expansion, and a composed
pixel by the bounds of each stage of Chapter 6; with O44. -/

namespace Sys2Proof.Machine
open Sys2Proof.Safety

/-! ### Images -/

theorem within_iff {c : Colour} : Colour.within c = true ↔ c.r ≤ 1023 ∧ c.g ≤ 1023 ∧ c.b ≤ 1023 := by simp [Colour.within, and_assoc]

/-- A colour written is clamped (R8, R9). -/
theorem within_colourOf (c : RawColour) : Colour.within (colourOf c) = true := by simp [Colour.within, colourOf]

theorem imageValues_iff {m : Image} : imageValues m = true ↔
    m.opacity ≤ 256 ∧ Colour.within m.fill = true ∧ ∀ k, m.key = some k → Colour.within k.colour = true := by
  cases hk : m.key <;> simp [imageValues, hk, and_assoc]

/-- A field written keeps the values of an image in range, by clamping (R8, R9, R10). -/
theorem Image.write_values {m n : Image} {f : RawField} (h : m.write f = some n) (hm : imageValues m = true) : imageValues n = true := by
  obtain ⟨hopacity, hfill, hkey⟩ := imageValues_iff.1 hm
  cases f with
  | opacity v =>
    obtain rfl := Option.some.inj h
    exact imageValues_iff.2 ⟨Nat.min_le_left .., hfill, hkey⟩
  | fill v =>
    obtain rfl := Option.some.inj h
    exact imageValues_iff.2 ⟨hopacity, within_colourOf v, hkey⟩
  | key v =>
    obtain ⟨x, hx, rfl⟩ := Option.map_eq_some_iff.1 h
    refine imageValues_iff.2 ⟨hopacity, hfill, ?_⟩
    rintro k rfl
    unfold optionOf keyOf at hx
    split at hx
    · cases hx
    · obtain ⟨k', hk', he⟩ := Option.map_eq_some_iff.1 hx
      obtain rfl := Option.some.inj he
      split at hk'
      · obtain rfl := Option.some.inj hk'
        exact within_colourOf _
      · cases hk'
  | sourceRect | targetRect | layer | holdLimit | fixedScreen | fixedClass | fixedSelectable =>
    obtain rfl := Option.some.inj h
    exact hm
  | source | blend | policy | alternate | choices =>
    obtain ⟨_, -, rfl⟩ := Option.map_eq_some_iff.1 h
    exact hm

/-- Both images of a record hold values in range. -/
def ValuedRecord (p : Placement) : Prop := imageValues p.staged = true ∧ ∀ m, p.committed = some m → imageValues m = true

theorem ValuedRecord.move {s : State} {c : Instr} {b : Option Placement} {q : Placement} (h : RecordMove s c b (some q))
    (hb : ∀ p, b = some p → ValuedRecord p) : ValuedRecord q := by
  cases h with
  | same => exact hb q rfl
  | @opened raw _ _ _ _ himage =>
    obtain ⟨x, -, hx⟩ := Option.bind_eq_some_iff.1 himage
    exact ⟨Image.writeAll_keeps Image.write_values hx (by decide), fun m hm => absurd hm (by simp [Placement.opened])⟩
  | amended _ hm =>
    obtain ⟨-, -, -, hwritten, -⟩ := State.amendedImage_eq_ok.1 hm
    exact ⟨Image.writeAll_keeps Image.write_values hwritten (hb _ rfl).1, (hb _ rfl).2⟩
  | @retired p => exact hb p rfl
  | armed named p =>
    unfold armRecord
    split <;> exact hb p rfl
  | @requested p => exact hb p rfl
  | disarmed p => exact hb p rfl

theorem valuedRecord_kept : KeptByStages ValuedRecord where
  apply n p q hp hq := by
    obtain ⟨-, -, -, hcom, hstaged, -⟩ := Placement.applied_eq_some hq
    unfold ValuedRecord
    rw [hcom, hstaged]
    exact ⟨hp.1, fun m hm => Option.some.inj hm ▸ hp.1⟩
  join p j _ hp := hp
  choice p m i hp _ hm _ := by
    rw [Placement.chosen_eq i hm]
    obtain ⟨hstaged, hcom⟩ := hp
    refine ⟨?_, fun n hn => Option.some.inj hn ▸ hcom m hm⟩
    dsimp only
    split <;> exact hstaged
  freeze p _ hp := by
    rw [Placement.freezeTaken_eq]
    exact hp
  decide answers p _ hlive hp := by
    obtain ⟨m, hm⟩ := Option.ne_none_iff_exists'.1 hlive
    rw [Placement.decided_eq answers hm]
    exact hp

/-! ### Tones and frames in composition -/

theorem LinkContext.takeLine_tone (l : LinkContext) (m : Composition) (pixels : List Colour) : (l.takeLine m pixels).tone = l.tone := by
  unfold LinkContext.takeLine
  split
  · split <;> rfl
  · rfl

theorem LinkContext.statusReturn_tone (l : LinkContext) (rear : Bool) (r : StatusReturn) : (l.statusReturn rear r).tone = l.tone := by
  have hfault : ∀ l : LinkContext, l.panelFault.tone = l.tone := by
    intro l
    unfold LinkContext.panelFault
    cases l.state <;> rfl
  unfold LinkContext.statusReturn
  split
  · exact (hfault _).trans rfl
  · rfl

/-- A tone is written by SET_SCREEN_TONE alone, clamped (R163). -/
theorem LinkMove.tone {s : State} {e : Instr} {sc : Screen} {l : LinkContext} (h : LinkMove s e sc l) :
    l.tone = (s.link sc).tone ∨ ∃ (c : RawColour) (g : Half), l.tone = ⟨colourOf c, min 2047 g.toNat⟩ := by
  cases h with
  | toned c g => exact .inr ⟨c, g, rfl⟩
  | frameStarted => exact .inl (LinkContext.frameStart_tone _ _)
  | lineTaken => exact .inl (LinkContext.takeLine_tone _ _ _)
  | returned => exact .inl (LinkContext.statusReturn_tone _ _ _)
  | same | enabled | disabled | reset | renewed => exact .inl rfl

/-- The background and gain of a tone are in range (R106, R163). -/
def TonesWithin (background : Colour) (gain : Nat) : Prop := Colour.within background = true ∧ gain ≤ 2047

/-- The drawing parameters are in range (R108). -/
def DrawsWithin (draws : List DrawParams) : Prop := ∀ p ∈ draws, p.opacity ≤ 256 ∧ Colour.within p.fill = true

theorem screenValues_iff {k : Composer} {l : LinkContext} : screenValues k l = true ↔
    TonesWithin k.background k.gain ∧ TonesWithin l.tone.background l.tone.gain ∧ ∀ m, k.composition = some m → DrawsWithin m.draws := by
  cases hk : k.composition <;> simp [screenValues, hk, TonesWithin, DrawsWithin, and_assoc]

theorem Effect.tone {s t : State} {c : Instr} (h : Effect s c t) {sc : Screen}
    (hs : TonesWithin (s.link sc).tone.background (s.link sc).tone.gain) : TonesWithin (t.link sc).tone.background (t.link sc).tone.gain := by
  obtain ⟨-, hreset⟩ | ⟨x, cfg, -, -, rfl⟩ | hmoves := h.link_cases
  · rw [hreset]
    exact ⟨by decide, by decide⟩
  · rw [State.screenSet_link]
    split
    · rename_i hx
      exact hx ▸ hs
    · exact hs
  · obtain htone | ⟨c, g, htone⟩ := (hmoves sc).tone
    · rw [htone]
      exact hs
    · rw [htone]
      exact ⟨within_colourOf c, Nat.min_le_left ..⟩

theorem State.assertReset_composer (s : State) (sc : Screen) : s.assertReset.composer sc = { s.composer sc with composition := none } := by
  cases sc <;> rfl

/-- But for the release of RESETn and the frame starts, a row leaves of a composer all but the line it composes next, or ends the frame in
composition (R109, R184). -/
theorem Effect.composer_cases {s t : State} {c : Instr} (h : Effect s c t) :
    (∀ sc, t.composer sc = .reset) ∨ (∃ d, t = s.domainStart d) ∨
      ∀ sc, t.composer sc = { s.composer sc with composition := (t.composer sc).composition } ∧
        ∀ m, (t.composer sc).composition = some m → ∃ n, (s.composer sc).composition = some n ∧ m.draws = n.draws := by
  have keep : ∀ {u : State}, (∀ sc, u.composer sc = s.composer sc) → ∀ sc, u.composer sc = { s.composer sc with
      composition := (u.composer sc).composition } ∧
      ∀ m, (u.composer sc).composition = some m → ∃ n, (s.composer sc).composition = some n ∧ m.draws = n.draws := fun hu sc => by
    rw [hu]
    exact ⟨rfl, fun m hm => ⟨m, hm, rfl⟩⟩
  cases h with
  | resetReleased => exact .inl reset_composer
  | domainStarted => exact .inr (.inl ⟨_, rfl⟩)
  | resetAsserted =>
    refine .inr (.inr fun sc => ?_)
    rw [s.assertReset_composer]
    exact ⟨rfl, fun m hm => by cases hm⟩
  | @lineHanded x m hm =>
    refine .inr (.inr fun sc => ?_)
    rw [State.modComposer_composer]
    split
    · rename_i hx
      subst hx
      refine ⟨rfl, fun n hn => ⟨m, hm, ?_⟩⟩
      obtain ⟨-, hn⟩ := Option.ite_none_right_eq_some.1 hn
      rw [← Option.some.inj hn]
    · exact ⟨rfl, fun m hm => ⟨m, hm, rfl⟩⟩
  | unchanged => exact .inr (.inr (keep fun sc => rfl))
  | answered => exact .inr (.inr (keep fun sc => rfl))
  | frameStarted => exact .inr (.inr (keep fun sc => by rw [State.reportStarts_frame]; simp))
  | opened | amended | freed | retired | armed | freezeRequested | sourceConfigured | sourceRestarted | screenConfigured | toneStored | linkEnabled
  | linkDisabled | linkReset | resetRenewed | domainSet | noticeTaken | masked | fetched | lineTaken | frameEnded | expired | returnTaken =>
    exact .inr (.inr (keep fun sc => by simp))

/-- A frame begun draws the committed images of LIVE records (R108). -/
theorem drawsWithin_filterMap {s : State} (hs : ∀ h p, s.placement h = some p → ValuedRecord p) (l : List Handle) :
    DrawsWithin (l.filterMap s.drawParams) := by
  intro d hd
  obtain ⟨h, -, hd⟩ := List.mem_filterMap.1 hd
  unfold State.drawParams at hd
  cases hp : s.placement h with
  | none => simp [hp] at hd
  | some p =>
    cases hm : p.committed with
    | none => simp [hp, hm] at hd
    | some m =>
      obtain ⟨hopacity, hfill, -⟩ := imageValues_iff.1 ((hs h p hp).2 m hm)
      simp only [hp, hm, Option.some.injEq] at hd
      subst hd
      exact ⟨hopacity, hfill⟩

theorem Effect.screenValues {s t : State} {c : Instr} (h : Effect s c t) (ht : ∀ h p, t.placement h = some p → ValuedRecord p) {sc : Screen}
    (hs : screenValues (s.composer sc) (s.link sc) = true) : screenValues (t.composer sc) (t.link sc) = true := by
  obtain ⟨hcomposer, hlink, hdraws⟩ := screenValues_iff.1 hs
  refine screenValues_iff.2 ⟨?_, h.tone hlink, ?_⟩
  · obtain hreset | ⟨d, rfl⟩ | hkept := h.composer_cases
    · rw [hreset]
      exact ⟨by decide, by decide⟩
    · by_cases hd : screenDomain sc = d
      · subst hd
        obtain ⟨hbackground, hgain⟩ := s.domainStart_tone sc
        rw [hbackground, hgain]
        exact hlink
      · rw [State.domainStart_composer_other s hd]
        exact hcomposer
    · rw [(hkept sc).1]
      exact hcomposer
  · obtain hreset | ⟨d, rfl⟩ | hkept := h.composer_cases
    · rw [hreset]
      exact fun m hm => by cases hm
    · by_cases hd : screenDomain sc = d
      · subst hd
        rw [s.domainStart_composition sc]
        intro m hm
        obtain rfl := Option.some.inj hm
        exact drawsWithin_filterMap ht _
      · rw [State.domainStart_composer_other s hd]
        exact hdraws
    · intro m hm
      obtain ⟨n, hn, he⟩ := (hkept sc).2 m hm
      exact he ▸ hdraws n hn

/-! ### Pixels -/

theorem SlotHeld.pixels {z w : Slot} (h : SlotHeld z w) (hz : z.PixelsWithin) : w.PixelsWithin := by
  obtain rfl | h := h
  · exact Slot.pixelsWithin_empty
  · rw [h]
    exact hz.of_lines rfl

/-- Every row keeps the pixels of every slot in range (R111). -/
theorem Effect.pixels {s t : State} {c : Instr} (h : Effect s c t) (hs : ∀ r, (s.slot r).PixelsWithin) (r : SlotRef) :
    (t.slot r).PixelsWithin := by
  cases h.storeMove with
  | emptied hinputs hnone =>
    rw [State.slot, hinputs]
    cases r.index <;> exact Slot.pixelsWithin_empty
  | latches hstage =>
    have hstage := hstage _ holderRel_le (.inl fun a b hab => (Nat.le_succ a).trans hab)
    exact (hstage.slots s.slot (fun r => .refl _) r).pixels (hs r)
  | inputs hinputs hlatch => exact (hinputs r.input).pixels (fun k => hs ⟨r.input, k⟩) r.index

/-! ### A composed pixel -/

/-- A mix of two channels is OVER at the weight for an opacity, so it stays in range with them (R116, R121). -/
theorem mix_le {p q w : Nat} (hp : p ≤ 1023) (hq : q ≤ 1023) (hw : w ≤ 255) : mix p q w ≤ 1023 := by
  have hover : mix p q w = blendChannel .over w q p := by rw [mix, blendChannel_over, Nat.add_comm (p * _)]
  rw [hover]
  exact blendChannel_over_le (by omega) hq hp

theorem mixSamples_within {w : Nat} (hw : w ≤ 255) {p q : Option Colour} {c : Colour} (hp : ∀ x ∈ p, Colour.within x = true)
    (hq : ∀ x ∈ q, Colour.within x = true) (h : mixSamples w p q = some c) : Colour.within c = true := by
  cases p with
  | none => cases h
  | some p =>
    cases q with
    | none => cases h
    | some q =>
      obtain ⟨hpr, hpg, hpb⟩ := within_iff.1 (hp p rfl)
      obtain ⟨hqr, hqg, hqb⟩ := within_iff.1 (hq q rfl)
      obtain rfl := Option.some.inj h
      exact within_iff.2 ⟨mix_le hpr hqr hw, mix_le hpg hqg hw, mix_le hpb hqb hw⟩

theorem Slot.PixelsWithin.read {z : Slot} (h : z.PixelsWithin) {column line : Nat} {c : Colour} (hc : z.read column line = some c) :
    Colour.within c = true := by
  unfold Slot.read at hc
  split at hc
  · cases hc
  · split at hc
    · split at hc
      · rename_i px hline
        exact h _ (List.mem_of_find?_eq_some hline) c (List.mem_of_getElem? hc)
      · cases hc
    · cases hc

theorem sampleSlot_within {z : Slot} (h : z.PixelsWithin) {ox oy ws hs : Nat} {r : Rect} {x y : Nat} {c : Colour}
    (hc : sampleSlot z ox oy ws hs r x y = some c) : Colour.within c = true := by
  rw [sampleSlot_eq fun _ _ => rfl, mixNeighbours] at hc
  have hread : ∀ column line, ∀ p ∈ z.read column line, Colour.within p = true := fun column line p hp => h.read hp
  exact mixSamples_within (sampleWeight_le _) (fun p hp => mixSamples_within (sampleWeight_le _) (hread _ _) (hread _ _) hp)
    (fun p hp => mixSamples_within (sampleWeight_le _) (hread _ _) (hread _ _) hp) hc

theorem DrawParams.sample_within {s : State} (hs : ∀ r, (s.slot r).PixelsWithin) {p : DrawParams} (hp : Colour.within p.fill = true)
    (column line : Nat) : Colour.within ((p.sample s column line).getD p.fill) = true := by
  cases hc : p.sample s column line with
  | none => exact hp
  | some c =>
    unfold DrawParams.sample at hc
    split at hc
    · exact sampleSlot_within (hs _) hc
    · obtain rfl := Option.some.inj hc
      exact hp
    · cases hc

theorem blendChannel_le {b : Blend} {a s d : Nat} (ha : a ≤ 256) (hs : s ≤ 1023) (hd : d ≤ 1023) : blendChannel b a s d ≤ 1023 := by
  cases b
  · exact blendChannel_over_le ha hs hd
  · exact blendChannel_add_le a s d

theorem blendColour_within {b : Blend} {a : Nat} {s d : Colour} (ha : a ≤ 256) (hs : Colour.within s = true) (hd : Colour.within d = true) :
    Colour.within (blendColour b a s d) = true := by
  obtain ⟨hsr, hsg, hsb⟩ := within_iff.1 hs
  obtain ⟨hdr, hdg, hdb⟩ := within_iff.1 hd
  exact within_iff.2 ⟨blendChannel_le ha hsr hdr, blendChannel_le ha hsg hdg, blendChannel_le ha hsb hdb⟩

theorem DrawParams.draw_within {s : State} (hs : ∀ r, (s.slot r).PixelsWithin) {p : DrawParams} (hopacity : p.opacity ≤ 256)
    (hfill : Colour.within p.fill = true) {d : Colour} (hd : Colour.within d = true) (column line : Nat) :
    Colour.within (DrawParams.draw s column line d p) = true := by
  by_cases hout : ¬ p.target.holds column line = true ∨ p.sampling = .nothing
  · rw [DrawParams.draw_outside d hout]
    exact hd
  · obtain ⟨hheld, hsampling⟩ := not_or.1 hout
    by_cases hkeyed : ∃ k, p.key = some k ∧ k.keysOut (p.sample s column line) = true
    · obtain ⟨k, hkey, hk⟩ := hkeyed
      rw [DrawParams.draw_keyedOut d hkey hk]
      exact hd
    · rw [DrawParams.draw_blended d (not_not.1 hheld) hsampling fun k hkey => Bool.eq_false_iff.2 fun hk => hkeyed ⟨k, hkey, hk⟩]
      exact blendColour_within hopacity (DrawParams.sample_within hs hfill column line) hd

/-- A composed pixel stays in range from placement to placement (R124). -/
theorem composedPixel_within {s : State} (hs : ∀ r, (s.slot r).PixelsWithin) {draws : List DrawParams} (hdraws : DrawsWithin draws)
    {background : Colour} (hb : Colour.within background = true) (column line : Nat) :
    Colour.within (composedPixel s background draws column line) = true := by
  induction draws using List.reverseRecOn with
  | nil => exact hb
  | append_singleton draws p ih =>
    obtain ⟨hopacity, hfill⟩ := hdraws p (by simp)
    rw [composedPixel_append]
    exact DrawParams.draw_within hs hopacity hfill (ih fun q hq => hdraws q (by simp [hq])) column line

theorem gainChannel_le (gain c : Nat) : gainChannel gain c ≤ 1023 := min_le_left _ _

theorem depthChannel_le {c : Nat} (depth : Nat) (hc : c ≤ 1023) : depthChannel depth c ≤ 1023 ∧ (depth = 8 → depthChannel depth c ≤ 255) := by
  unfold depthChannel
  split <;> omega

/-- A value at the screen's depth lies in the depth's range (R124). -/
theorem outputColour_within (gain depth : Nat) (d : Colour) : Colour.within (outputColour gain depth d) = true ∧
    (depth = 8 → (outputColour gain depth d).r ≤ 255 ∧ (outputColour gain depth d).g ≤ 255 ∧ (outputColour gain depth d).b ≤ 255) := by
  obtain ⟨hr, hr8⟩ := depthChannel_le depth (gainChannel_le gain d.r)
  obtain ⟨hg, hg8⟩ := depthChannel_le depth (gainChannel_le gain d.g)
  obtain ⟨hb, hb8⟩ := depthChannel_le depth (gainChannel_le gain d.b)
  exact ⟨within_iff.2 ⟨hr, hg, hb⟩, fun h => ⟨hr8 h, hg8 h, hb8 h⟩⟩

end Sys2Proof.Machine

namespace Sys2Proof.Safety

open Sys2Proof.Machine

theorem rangeLaw_iff {s : State} : RangeLaw s ↔ (∀ h p, s.placement h = some p → ValuedRecord p) ∧
    (∀ sc, screenValues (s.composer sc) (s.link sc) = true) ∧ ∀ r, (s.slot r).PixelsWithin :=
  and_congr (forall₂_congr fun _ _ => Iff.rfl) (and_congr ⟨fun h sc => h sc (mem_allScreens sc), fun h sc _ => h sc⟩
    ⟨fun h r => h r.input (mem_allInputs _) r.index (mem_allSlots _), fun h i _ k _ => h ⟨i, k⟩⟩)

theorem rangeLaw_effect {s t : State} {c : Instr} (h : Effect s c t) (hs : RangeLaw s) : RangeLaw t := by
  obtain ⟨hrecords, hscreens, hpixels⟩ := rangeLaw_iff.1 hs
  have ht := h.keeps_records (fun _ _ => ValuedRecord.move) valuedRecord_kept hrecords
  exact rangeLaw_iff.2 ⟨ht, fun sc => h.screenValues ht (hscreens sc), h.pixels hpixels⟩

/-- Settles O44: every value is clamped or expanded where it enters, and each stage of a pixel keeps the range. -/
theorem composedChannelsStayInRange : Obligations.ComposedChannelsStayInRange := by
  intro s hs
  refine ⟨fun t hstep => ?_, fun sc m hm => ?_⟩
  · refine step_keeps (P := RangeLaw) (fun s t hst h => ?_) (fun s c t he => rangeLaw_effect he) hstep hs
    obtain ⟨a, b, c, rfl⟩ := hst.exists
    exact h
  · obtain ⟨-, hscreens, hpixels⟩ := rangeLaw_iff.1 hs
    obtain ⟨⟨hbackground, -⟩, -, hdraws⟩ := screenValues_iff.1 (hscreens sc)
    refine ⟨composedPixel_within hpixels (hdraws m hm) hbackground, fun c hc => ?_⟩
    obtain ⟨column, -, rfl⟩ := List.mem_map.1 hc
    exact outputColour_within _ _ _

end Sys2Proof.Safety
end

section
/-! SUPPORT. Application as a whole (R39 to R45): what it makes of each record and of the live list, and that this is the set a COMMIT checked;
with O37. -/

namespace Sys2Proof.Machine
open Sys2Proof.Safety

theorem State.record_eq {s : State} {h : Handle} {g : BitVec 8} {b : Option Placement} (hg : (s.record h).generation = g)
    (hb : s.placement h = b) : s.record h = ⟨g, b⟩ := by
  subst hg hb
  rfl

/-! ### Records -/

theorem State.applyArmed_unarmed {s : State} {sc : Screen} (hnone : ∀ h p, s.placement h = some p → p.screen = sc → p.armed = false)
    (n : Nat) : s.applyArmed sc n = s := by
  obtain ⟨-, he⟩ | ⟨-, -, -, -, -, ⟨h, p, hp, hsc, harmed⟩, -⟩ := s.applyArmed_eq sc n
  · exact he
  · rw [hnone h p hp hsc] at harmed
    cases harmed

theorem State.applyArmed_record_none {s : State} {h : Handle} (hp : s.placement h = none) (sc : Screen) (n : Nat) :
    (s.applyArmed sc n).record h = s.record h :=
  State.record_ext (State.applyArmed_generation ..) (State.applyArmed_placement_other n fun p hp' => by rw [hp] at hp'; cases hp')

/-- A record of the screen that is not armed keeps all but its place in the live list (R43). -/
theorem State.applyArmed_record_kept {s : State} {h : Handle} {p : Placement} (hp : s.placement h = some p) (harmed : p.armed = false)
    (sc : Screen) (n : Nat) : ∃ j, (s.applyArmed sc n).record h = ⟨(s.record h).generation, some { p with joinPosition := j }⟩ := by
  obtain ⟨j, hj⟩ := s.applyArmed_placement sc n h
  refine ⟨j p, State.record_eq (State.applyArmed_generation ..) ?_⟩
  rw [hj]
  simp [State.afterApplication, hp, harmed]

/-- An armed record of the screen is applied and takes its place in the live list (R40 to R43). -/
theorem State.applyArmed_record_armed {s : State} {h : Handle} {p : Placement} (hp : s.placement h = some p) (harmed : p.armed = true) (n : Nat) :
    ∃ j : Placement → Option Nat, (s.applyArmed p.screen n).record h =
      ⟨(s.record h).generation, (p.applied n).map fun q => { q with joinPosition := j q }⟩ := by
  obtain ⟨j, hj⟩ := s.applyArmed_placement p.screen n h
  refine ⟨j, State.record_eq (State.applyArmed_generation ..) ?_⟩
  rw [hj]
  simp [State.afterApplication, hp, harmed]

theorem State.applyArmed_lastApplied {s : State} {h : Handle} {p : Placement} (hp : s.placement h = some p) (harmed : p.armed = true) (n : Nat) :
    ((s.applyArmed p.screen n).composer p.screen).lastApplied = n := by
  obtain ⟨hnone, -⟩ | ⟨t, l, -, -, -, -, he⟩ := s.applyArmed_eq p.screen n
  · rw [hnone h p hp rfl] at harmed
    cases harmed
  · rw [he, State.raise_frame]
    simp

theorem Placement.applied_retired {p : Placement} (hr : p.retireStaged = true) (n : Nat) : p.applied n = none := by
  simp [Placement.applied, hr]

theorem Placement.applied_new {p : Placement} (hr : p.retireStaged = false) (hc : p.committed = none) (n : Nat) :
    p.applied n = some (p.join n) := by
  simp [Placement.applied, hr, hc]

theorem Placement.applied_live {p : Placement} {m : Image} (hr : p.retireStaged = false) (hc : p.committed = some m) (n : Nat) :
    p.applied n = some { p with
      committed := some p.staged, armed := false
      latched := if m.source = p.staged.source then p.latched else none
      age := if m.source = p.staged.source then p.age else 0
      lastFrame := if m.source = p.staged.source then p.lastFrame else 0 } := by
  by_cases hm : m.source = p.staged.source <;> simp [Placement.applied, hr, hc, hm, Placement.takeStaged]

/-- The committed image a record of the screen has after application (R40 to R42). -/
theorem State.applyArmed_committed {s : State} {h : Handle} {p : Placement} (hp : s.placement h = some p) (n : Nat) :
    ((s.applyArmed p.screen n).placement h).bind Placement.committed = appliedImage p := by
  obtain ⟨j, hj⟩ := s.applyArmed_placement p.screen n h
  have hbind : ∀ o : Option Placement, (o.map fun q => { q with joinPosition := j q }).bind Placement.committed = o.bind Placement.committed :=
    fun o => by cases o <;> rfl
  rw [hj, hbind, State.afterApplication, hp, Option.bind_some]
  unfold appliedImage
  cases harmed : p.armed with
  | false => simp
  | true =>
    cases hr : p.retireStaged with
    | true => simp [Placement.applied_retired hr]
    | false =>
      cases hc : p.committed with
      | none => simp [Placement.applied_new hr hc, Placement.join]
      | some m => simp [Placement.applied_live hr hc]

/-! ### The live list -/

/-- Each member of a live list has its place as its join position (R12, R43). -/
theorem JoinAt.position {s : State} {sc : Screen} (h : JoinAt s sc) {n : Nat} {k : Handle} (hk : (s.liveList sc)[n]? = some k) :
    (s.placement k).bind Placement.joinPosition = some n := by
  obtain ⟨hn, rfl⟩ := List.getElem?_eq_some_iff.1 hk
  have hplace := congrArg (fun l : List (Option Nat) => l[n]?) h.1
  simpa [hn] using hplace

/-! ### The set a COMMIT checked -/

/-- The handles and images of two sets agree when what is seen of them does and each image is that of one choice by handle. -/
theorem handles_images_eq {l l' : List Candidate} (image : Handle → Option Image) (hseen : l.map Candidate.seen = l'.map Candidate.seen)
    (hl : ∀ c ∈ l, image c.handle = some c.image) (hl' : ∀ c ∈ l', image c.handle = some c.image) :
    (l.map fun c => (c.handle, c.image)) = l'.map fun c => (c.handle, c.image) := by
  have hpairs : ∀ k : List Candidate, (∀ c ∈ k, image c.handle = some c.image) →
      (k.map fun c => (c.handle, c.image)) = (k.map Candidate.seen).map fun x => (x.handle, (image x.handle).getD Image.blank) := by
    intro k hk
    rw [List.map_map]
    refine List.map_congr_left fun c hc => ?_
    change _ = (c.handle, (image c.handle).getD Image.blank)
    rw [hk c hc]
    rfl
  rw [hpairs l hl, hpairs l' hl', hseen]

/-- A member of a would-be live set is a record of the screen in the image chosen for it (R27). -/
theorem State.mem_wouldBe {s : State} {sc : Screen} {c : Candidate} (hc : c ∈ s.wouldBe sc) :
    s.placement c.handle = some c.placement ∧ c.placement.screen = sc ∧ wouldImage c.placement = some c.image := by
  have hmember : ∀ {l : List Handle}, (∀ h ∈ l, ∀ p, s.placement h = some p → p.screen = sc) → c ∈ s.candidates l →
      s.placement c.handle = some c.placement ∧ c.placement.screen = sc ∧ wouldImage c.placement = some c.image := by
    intro l hl hc
    rw [State.candidates_eq] at hc
    obtain ⟨hh, hp, himage⟩ := mem_members.1 hc
    exact ⟨hp, hl _ hh _ hp, himage⟩
  obtain hstay | hmove := mem_layered hc
  · exact hmember (fun h hh p hp => liveList_screen hh hp) (List.mem_filter.1 hstay).1
  · refine hmember (fun h hh p hp => ?_) (List.mem_filter.1 hmove).1
    obtain ⟨q, hq, hsc, -⟩ := State.mem_handlesOn.1 hh
    exact Option.some.inj (hp.symm.trans hq) ▸ hsc

end Sys2Proof.Machine

namespace Sys2Proof.Safety

open Sys2Proof.Machine

/-- What a COMMIT that passed on the screen armed is, once applied, the would-be live set it checked, in the order it predicted (R28, R43, R45). -/
theorem drawnSet_committed {s t : State} {c : Instr} {named : List Screen} {body : List Byte} {sc : Screen} (himage : ImageLaw s)
    (hjoin : JoinLaw s) (hsc : sc ∈ named) (he : Effect s c t) (ht : t = (s.arm named).respond .ok body) (n : Nat) :
    (drawnSet (t.applyArmed sc n) sc).map (fun c => (c.handle, c.image)) = (s.wouldBe sc).map fun c => (c.handle, c.image) := by
  have hplace : ∀ k, t.placement k = (s.placement k).map (armRecord named) := fun k => by
    rw [ht, State.armed_placement]
  have hdrawn := (State.applyArmed_drawn (s := t) (sc := sc) n (ImageLaw.layer (imageLaw_effect he himage) appliedImage_cases)
    (joinLaw_iff.1 (joinLaw_effect he himage hjoin) sc)).1
  have horder : t.order sc appliedImage = s.order sc wouldImage := by
    rw [ht]
    exact State.order_of_standing (s.arm_standing named body sc) (s.arm_seen body hsc)
  refine handles_images_eq (fun h => ((t.applyArmed sc n).placement h).bind Placement.committed) ?_ (fun c hc => ?_) fun c hc => ?_
  · rw [map_seen_drawnSet, hdrawn, horder, map_seen_wouldBe]
  · obtain ⟨-, hp, hm⟩ := mem_members.1 hc
    simp [hp, hm]
  · obtain ⟨hp, hscreen, hm⟩ := State.mem_wouldBe hc
    have harm : t.placement c.handle = some (armRecord named c.placement) := by rw [hplace, hp]; rfl
    have hsame : (armRecord named c.placement).screen = sc := by
      rw [← hscreen, armRecord_fields]
    have hcommitted := State.applyArmed_committed harm n
    rw [hsame] at hcommitted
    rw [hcommitted, appliedImage_armRecord (hscreen.symm ▸ hsc), hm]

/-- Settles O37: application record by record, its place in a frame start, and the set COMMIT checked, which the drawing order predicted. -/
theorem applicationGivesTheCheckedSet : Obligations.ApplicationGivesTheCheckedSet := by
  refine ⟨?_, ?_, ?_⟩
  · rintro s u sc frame rfl
    refine ⟨fun hnone => State.applyArmed_unarmed hnone frame, fun hheld hnew => ?_, fun himage hjoin n h hn => ?_,
      fun h hp => State.applyArmed_record_none hp sc frame, fun h p hp => ⟨fun hsc => ?_, ?_, ?_⟩⟩
    · exact holderLaw_iff.2 ((State.applyArmed_storeStage holderRel_eq sc frame (.inr hnew)).held (holderLaw_iff.1 hheld))
    · exact (State.applyArmed_drawn frame (ImageLaw.layer himage appliedImage_cases) (joinLaw_iff.1 hjoin sc)).2.position hn
    · refine State.record_ext (State.applyArmed_generation ..) (State.applyArmed_placement_other frame fun q hq => ?_)
      exact Option.some.inj (hp.symm.trans hq) ▸ hsc
    · rintro rfl harmed
      exact State.applyArmed_record_kept hp harmed _ frame
    · rintro rfl harmed
      obtain ⟨j, hrecord⟩ := State.applyArmed_record_armed hp harmed frame
      have hmem : s.handlesOn p.screen Placement.armed ≠ [] := List.ne_nil_of_mem (State.mem_handlesOn.2 ⟨p, hp, rfl, harmed⟩)
      refine ⟨State.applyArmed_lastApplied hp harmed frame, fun hlaw => ?_, fun hr => ⟨?_, ?_, ?_⟩, fun hr hc => ?_, fun m hr hc => ?_⟩
      · have hnoticed := noticed_applyArmed s p.screen frame (k := .applied p.screen) fun h p ho => by rcases ho with ho | ho <;> cases ho
        exact (hnoticed.congr (iff_true_intro ⟨rfl, hmem⟩)).count hlaw
      · rw [hrecord, Placement.applied_retired hr]
        rfl
      · exact noticeCount_silent (silent_applyArmed s frame (.inl rfl) hp harmed hr)
      · exact noticeCount_silent (silent_applyArmed s frame (.inr rfl) hp harmed hr)
      · rw [Placement.applied_new hr hc] at hrecord
        exact ⟨_, hrecord⟩
      · rw [Placement.applied_live hr hc] at hrecord
        exact ⟨_, hrecord⟩
  · rintro s v d frame hrun hdue rfl rfl
    exact ⟨exec_domainFrameStart hrun hdue, fun sc => rfl⟩
  · intro s t l named sc frame hrun himage hjoin hl hnodup hsc hpass ht
    have he := exec_effect ht
    have hpass' : ∀ x ∈ allScreens.filter named.contains, s.admissionFault x = none := fun x hx =>
      hpass x (by simpa using (List.mem_filter.1 hx).2)
    rw [exec_commit hrun hl, if_neg (by simp [List.ne_nil_of_mem hsc, hnodup]), State.commitScreens_passed hpass'] at ht
    exact drawnSet_committed himage hjoin (by simpa using hsc) he (Host.Outcome.next.inj ht).symm frame

end Sys2Proof.Safety
end

section
/-! SUPPORT. Generations and passenger choices (R2, R46, R47): what taking a pending choice does, which rows advance a generation, and that at a
frame start it is the reachable choices that do. -/

namespace Sys2Proof.Machine
open Sys2Proof.Safety

/-! ### Taking a pending choice -/

/-- The choice reaches this record: the screen's LIVE selectable one, with an entry of that number in its committed list (R46). -/
def State.ChoiceReaches (s : State) (sc : Screen) (k : Nat) (h : Handle) : Prop :=
  ∃ m, s.liveSelectable sc = some h ∧ (s.placement h).bind Placement.committed = some m ∧ k < (m.choices.getD []).length

theorem State.takeChoice_idle {s : State} {sc : Screen} (h : isRearScreen sc = false ∨ (s.link sc).pendingChoice = none) :
    s.takeChoice sc = s := by
  unfold State.takeChoice
  obtain h | h := h <;> simp [h]

/-- A choice that reaches no record counts as a bad one (R46, R150). -/
theorem State.takeChoice_unreached {s : State} {sc : Screen} {k : Nat} (hrear : isRearScreen sc = true)
    (hk : (s.link sc).pendingChoice = some k) (hreach : s.reachable sc k = none) :
    s.takeChoice sc = { s with links := s.links.set sc { s.link sc with
      pendingChoice := none, badChoices := min 65535 ((s.link sc).badChoices + 1) } } := by
  have hreach' : (s.modLink sc fun l => { l with pendingChoice := none }).reachable sc k = none := hreach
  unfold State.takeChoice
  rw [if_pos hrear, hk]
  dsimp only
  rw [hreach']
  cases sc <;> rfl

theorem State.takeChoice_reached {s : State} {sc : Screen} {k : Nat} {h : Handle} {m : Image} {i : InputId} (hrear : isRearScreen sc = true)
    (hk : (s.link sc).pendingChoice = some k) (hreach : s.reachable sc k = some (h, m, i)) :
    s.takeChoice sc = (s.modLink sc fun l => { l with pendingChoice := none }).applyChoice sc h m i := by
  have hreach' : (s.modLink sc fun l => { l with pendingChoice := none }).reachable sc k = some (h, m, i) := hreach
  unfold State.takeChoice
  rw [if_pos hrear, hk]
  dsimp only
  rw [hreach']

theorem State.choiceReaches_iff {s : State} {sc : Screen} {k : Nat} {h : Handle} :
    s.ChoiceReaches sc k h ↔ ∃ m i, s.reachable sc k = some (h, m, i) := by
  constructor
  · rintro ⟨m, hsel, hm, hk⟩
    exact ⟨m, m.choiceList[k], State.reachable_eq_some.2 ⟨hsel, hm, List.getElem?_eq_getElem hk⟩⟩
  · rintro ⟨m, i, hreach⟩
    obtain ⟨hsel, hm, hi⟩ := State.reachable_eq_some.1 hreach
    exact ⟨m, hsel, hm, (List.getElem?_eq_some_iff.1 hi).1⟩

/-- The generation advances for the record a pending choice reaches, and for no other (R2, R47). -/
theorem State.takeChoice_generation (s : State) (sc : Screen) (h : Handle) :
    ((isRearScreen sc = true ∧ ∃ k, (s.link sc).pendingChoice = some k ∧ s.ChoiceReaches sc k h) ∧
        ((s.takeChoice sc).record h).generation = (s.record h).generation + 1) ∨
      (¬ (isRearScreen sc = true ∧ ∃ k, (s.link sc).pendingChoice = some k ∧ s.ChoiceReaches sc k h) ∧
        ((s.takeChoice sc).record h).generation = (s.record h).generation) := by
  by_cases hidle : isRearScreen sc = false ∨ (s.link sc).pendingChoice = none
  · rw [State.takeChoice_idle hidle]
    refine .inr ⟨?_, rfl⟩
    rintro ⟨hrear, k, hk, -⟩
    rw [hrear, hk] at hidle
    simp at hidle
  · obtain ⟨hrear, hpending⟩ := not_or.1 hidle
    obtain ⟨k, hk⟩ := Option.ne_none_iff_exists'.1 hpending
    have hrear := Bool.eq_true_of_not_eq_false hrear
    cases hreach : s.reachable sc k with
    | none =>
      rw [State.takeChoice_unreached hrear hk hreach]
      refine .inr ⟨?_, rfl⟩
      rintro ⟨-, k', hk', hreaches⟩
      obtain rfl := Option.some.inj (hk.symm.trans hk')
      obtain ⟨m, i, hsome⟩ := State.choiceReaches_iff.1 hreaches
      rw [hreach] at hsome
      cases hsome
    | some reached =>
      obtain ⟨h', m, i⟩ := reached
      rw [State.takeChoice_reached hrear hk hreach, State.applyChoice_generation]
      by_cases hh : h = h'
      · subst hh
        exact .inl ⟨⟨hrear, k, hk, State.choiceReaches_iff.2 ⟨m, i, hreach⟩⟩, if_pos rfl⟩
      · rw [if_neg hh]
        refine .inr ⟨?_, rfl⟩
        rintro ⟨-, k', hk', hreaches⟩
        obtain rfl := Option.some.inj (hk.symm.trans hk')
        obtain ⟨m', i', hsome⟩ := State.choiceReaches_iff.1 hreaches
        rw [hreach] at hsome
        exact hh (Prod.mk.inj (Option.some.inj hsome)).1.symm

/-! ### What a choice can reach after the frame start -/

/-- The outline of a record of the screen (R39). -/
def State.outlineOn (s : State) (sc : Screen) (h : Handle) : Option Placement :=
  (s.placement h).bind fun p => if p.screen = sc then some p.outline else none

theorem State.outlineOn_eq_some {s : State} {sc : Screen} {h : Handle} {o : Placement} :
    s.outlineOn sc h = some o ↔ ∃ p, s.placement h = some p ∧ p.screen = sc ∧ p.outline = o := by
  unfold State.outlineOn
  cases s.placement h <;> simp

theorem State.SameOn.outlineOn {s t : State} {sc : Screen} (h : s.SameOn t sc) (x : Handle) : t.outlineOn sc x = s.outlineOn sc x := by
  refine Option.ext fun o => ?_
  rw [State.outlineOn_eq_some, State.outlineOn_eq_some]
  exact exists_congr fun p =>
    ⟨fun ⟨hp, hsc, ho⟩ => ⟨(h x p hsc).1 hp, hsc, ho⟩, fun ⟨hp, hsc, ho⟩ => ⟨(h x p hsc).2 hp, hsc, ho⟩⟩

/-- The steps after application keep the outline of every record (R39). -/
theorem State.composerStart_outlineOn (s : State) (sc x : Screen) (n : Nat) (h : Handle) :
    (s.composerStart sc n).outlineOn x h = (s.applyArmed sc n).outlineOn x h := by
  have hmap : ∀ t : State, t.outlineOn x h = ((t.placement h).map Placement.outline).bind fun o => if o.screen = x then some o else none := by
    intro t
    unfold State.outlineOn
    cases t.placement h <;> rfl
  rw [hmap, hmap, State.composerStart_outline]

theorem State.liveSelectable_of_outlineOn {s t : State} {sc : Screen} (h : ∀ x, t.outlineOn sc x = s.outlineOn sc x) :
    t.liveSelectable sc = s.liveSelectable sc := by
  have hon : ∀ (u : State) x, u.onScreen sc (fun p => p.isLive && p.selectable) x =
      match u.outlineOn sc x with
      | some o => o.isLive && o.selectable
      | none => false := by
    intro u x
    unfold State.onScreen State.outlineOn
    cases u.placement x with
    | none => rfl
    | some p => by_cases hsc : p.screen = sc <;> simp [hsc, Placement.outline, Placement.isLive]
  unfold State.liveSelectable State.handlesOn
  congr 1
  refine List.filter_congr fun x _ => ?_
  rw [hon, hon, h]

/-- What a choice reaches can be told from the outlines of the screen's records (R46). -/
theorem State.choiceReaches_of_outlineOn {s t : State} {sc : Screen} (h : ∀ x, t.outlineOn sc x = s.outlineOn sc x) (k : Nat) (x : Handle) :
    t.ChoiceReaches sc k x ↔ s.ChoiceReaches sc k x := by
  have hreaches : ∀ u : State, u.ChoiceReaches sc k x ↔
      u.liveSelectable sc = some x ∧ ∃ o m, u.outlineOn sc x = some o ∧ o.committed = some m ∧ k < (m.choices.getD []).length := by
    intro u
    constructor
    · rintro ⟨m, hsel, hm, hk⟩
      obtain ⟨p, m', hp, hsc, -, hm'⟩ := State.liveSelectable_eq_some hsel
      rw [hp, Option.bind_some, hm'] at hm
      obtain rfl := Option.some.inj hm
      exact ⟨hsel, p.outline, m'.unsourced, State.outlineOn_eq_some.2 ⟨p, hp, hsc, rfl⟩, by simp [Placement.outline, hm'], hk⟩
    · rintro ⟨hsel, o, m, ho, hm, hk⟩
      obtain ⟨p, hp, -, rfl⟩ := State.outlineOn_eq_some.1 ho
      obtain ⟨m', hm', rfl⟩ := Option.map_eq_some_iff.1 hm
      exact ⟨m', hsel, by rw [hp]; exact hm', hk⟩
  rw [hreaches, hreaches, State.liveSelectable_of_outlineOn h, h]

/-- At its domain's frame start a screen's link goes through its composer's work and then its own (R90, R151). -/
theorem State.domainStart_link_own (s : State) (sc : Screen) :
    (s.domainStart (screenDomain sc)).link sc =
      (((s.handedTo sc).composerStart sc (s.newFrame (screenDomain sc))).link sc).frameStart (s.newFrame (screenDomain sc)) := by
  unfold State.handedTo State.newFrame
  simp only [State.domainStart, State.handFrameStart, State.linkStart, State.changeLink_link]
  obtain hfirst | hsecond := screenDomain_eq_iff.1 (rfl : screenDomain sc = screenDomain sc)
  · have hne : sc ≠ (domainScreens (screenDomain sc)).2 := fun he => domainScreens_ne _ (hfirst.symm.trans he)
    obtain ⟨-, -, -, -, hother⟩ := ((s.domainWork (screenDomain sc)).composerStart (domainScreens (screenDomain sc)).1
      ((s.domainWork (screenDomain sc)).domain (screenDomain sc)).frameNumber).composerStart_link_cases (domainScreens (screenDomain sc)).2 sc
        ((s.domainWork (screenDomain sc)).domain (screenDomain sc)).frameNumber
    rw [if_neg hne, if_pos hfirst, if_pos hfirst, ← hfirst]
    rw [← hfirst] at hother
    rw [hother hne]
  · have hne : sc ≠ (domainScreens (screenDomain sc)).1 := fun he => domainScreens_ne _ (he.symm.trans hsecond)
    rw [if_pos hsecond, if_neg hne, ← hsecond, if_neg fun he => hne he]

theorem LinkContext.frameStart_pendingChoice (l : LinkContext) (n : Nat) : (l.frameStart n).pendingChoice = l.pendingChoice := by
  have h := l.judged_rest
  simp only [Prod.mk.injEq] at h
  obtain ⟨-, -, -, hpending, -⟩ := h
  rw [l.frameStart_eq]
  exact hpending

/-- No choice is pending on a rear screen after its frame start (R46). -/
theorem State.domainStart_pendingChoice (s : State) {sc : Screen} (hrear : isRearScreen sc = true) :
    ((s.domainStart (screenDomain sc)).link sc).pendingChoice = none := by
  rw [State.domainStart_link_own, LinkContext.frameStart_pendingChoice, State.composerStart_link]
  obtain ⟨b, -, hb⟩ := ((s.handedTo sc).applyArmed sc (s.newFrame (screenDomain sc))).takeChoice_link sc sc
  rw [hb]
  split
  · rfl
  · rename_i hkept
    by_contra hpending
    exact hkept ⟨rfl, hrear, hpending⟩

/-! ### Which rows take a choice -/

/-- But for a frame start no row takes a pending choice (R46, R148). -/
theorem LinkMove.pendingChoice {s : State} {c : Instr} {sc : Screen} {l : LinkContext} (h : LinkMove s c sc l) (hc : isFrameStart c = false)
    (hl : l.pendingChoice = none) : (s.link sc).pendingChoice = none := by
  cases h with
  | frameStarted _ _ _ _ hstart => rw [hstart] at hc; cases hc
  | lineTaken m pixels =>
    unfold LinkContext.takeLine at hl
    split at hl
    · split at hl <;> exact hl
    · exact hl
  | returned r _ =>
    have hfault : ∀ l : LinkContext, l.panelFault.pendingChoice = l.pendingChoice := by
      intro l
      unfold LinkContext.panelFault
      cases l.state <;> rfl
    have htaken : (if isRearScreen sc && r.choice.isSome then r.choice else (s.link sc).pendingChoice) = none := by
      unfold LinkContext.statusReturn at hl
      split at hl
      · exact (hfault _).symm.trans hl
      · exact hl
    split at htaken
    · rename_i hsome
      simp [htaken] at hsome
    · exact htaken
  | same | toned | enabled | disabled | reset | renewed => exact hl

theorem Effect.pendingChoice {s t : State} {c : Instr} (h : Effect s c t) (hrelease : c ≠ .resetnRelease) (hc : isFrameStart c = false)
    {sc : Screen} (ht : (t.link sc).pendingChoice = none) : (s.link sc).pendingChoice = none := by
  obtain ⟨hrel, -⟩ | ⟨x, cfg, -, -, rfl⟩ | hmoves := h.link_cases
  · exact absurd hrel hrelease
  · rw [State.screenSet_link] at ht
    split at ht
    · rename_i hx
      exact hx ▸ ht
    · exact ht
  · exact (hmoves sc).pendingChoice hc ht

/-! ### Generations at a frame start -/

theorem State.composerStart_generation (s : State) (sc : Screen) (n : Nat) (h : Handle) :
    ((s.composerStart sc n).record h).generation = (((s.applyArmed sc n).takeChoice sc).record h).generation := by
  unfold State.composerStart
  simp only [State.beginComposition_rest]
  rw [State.decideViews_generation]
  simp only [State.takeTone_rest]
  rw [State.takeFreezes_generation]

/-- From one state to the next a screen's pending choice was taken and reached this record (R46, R47). -/
def ChoiceApplied (s t : State) (h : Handle) : Prop :=
  ∃ sc k m, isRearScreen sc = true ∧ (s.link sc).pendingChoice = some k ∧ (t.link sc).pendingChoice = none ∧
    t.liveSelectable sc = some h ∧ (t.placement h).bind Placement.committed = some m ∧ k < (m.choices.getD []).length

/-- The state in which a screen's pending choice is taken at the frame start of its domain (R39). -/
def State.beforeChoice (s : State) (sc : Screen) : State := (s.handedTo sc).applyArmed sc (s.newFrame (screenDomain sc))

theorem State.beforeChoice_link (s : State) (sc : Screen) : (s.beforeChoice sc).link sc = s.link sc := by
  obtain ⟨-, -, hlink, -⟩ := s.domainStart_composer_own sc
  rw [← hlink]
  simp [State.beforeChoice]

theorem State.domainStart_choiceReaches (s : State) (sc : Screen) (k : Nat) (h : Handle) :
    (s.domainStart (screenDomain sc)).ChoiceReaches sc k h ↔ (s.beforeChoice sc).ChoiceReaches sc k h := by
  obtain ⟨-, hsame, -, -⟩ := s.domainStart_composer_own sc
  exact State.choiceReaches_of_outlineOn (fun x => (hsame.outlineOn x).trans (State.composerStart_outlineOn ..)) k h

/-- At a domain frame start the choices applied are the pending ones that reach a record once the armed changes are applied (R39, R46). -/
theorem State.domainStart_choiceApplied (s : State) (d : Domain) (h : Handle) :
    ChoiceApplied s (s.domainStart d) h ↔ ∃ p, s.placement h = some p ∧ screenDomain p.screen = d ∧ isRearScreen p.screen = true ∧
      ∃ k, ((s.beforeChoice p.screen).link p.screen).pendingChoice = some k ∧ (s.beforeChoice p.screen).ChoiceReaches p.screen k h := by
  constructor
  · rintro ⟨sc, k, m, hrear, hk, htaken, hsel, hm, hlt⟩
    obtain ⟨q, -, hq, hqsc, -⟩ := State.liveSelectable_eq_some hsel
    obtain ⟨p, hp, hscreen, -⟩ := State.domainStart_screen hq
    obtain rfl : p.screen = sc := hscreen.symm.trans hqsc
    have hd : screenDomain p.screen = d := by
      by_contra hother
      obtain ⟨_, _, -, hlink⟩ := s.domainStart_link d p.screen
      rw [hlink, if_neg hother, hk] at htaken
      cases htaken
    subst hd
    refine ⟨p, hp, rfl, hrear, k, ?_, (s.domainStart_choiceReaches p.screen k h).1 ⟨m, hsel, hm, hlt⟩⟩
    rw [State.beforeChoice_link, hk]
  · rintro ⟨p, -, rfl, hrear, k, hk, hreach⟩
    obtain ⟨m, hsel, hm, hlt⟩ := (s.domainStart_choiceReaches p.screen k h).2 hreach
    rw [State.beforeChoice_link] at hk
    exact ⟨p.screen, k, m, hrear, hk, s.domainStart_pendingChoice hrear, hsel, hm, hlt⟩

/-- A generation after an event that advances it, or after none. -/
def GenerationBy (event : Prop) (s t : State) (h : Handle) : Prop :=
  (event → (t.record h).generation = (s.record h).generation + 1) ∧ (¬ event → (t.record h).generation = (s.record h).generation)

theorem GenerationBy.of_not {event : Prop} {s t : State} {h : Handle} (hevent : ¬ event)
    (hsame : (t.record h).generation = (s.record h).generation) : GenerationBy event s t h := ⟨fun he => absurd he hevent, fun _ => hsame⟩

theorem GenerationBy.congr {event event' : Prop} {s t : State} {h : Handle} (hg : GenerationBy event s t h) (he : event' ↔ event) :
    GenerationBy event' s t h := ⟨fun h => hg.1 (he.1 h), fun h => hg.2 fun h' => h (he.2 h')⟩

/-- At a frame start the generation of a record advances where a choice is applied to it, and nowhere else (R2, R47). -/
theorem State.domainStart_generation (s : State) (d : Domain) (h : Handle) : GenerationBy (ChoiceApplied s (s.domainStart d) h) s (s.domainStart d) h := by
  refine GenerationBy.congr ?_ (s.domainStart_choiceApplied d h)
  by_cases hown : ∃ p, s.placement h = some p ∧ screenDomain p.screen = d
  · obtain ⟨p, hp, rfl⟩ := hown
    obtain ⟨-, hhanded, hrecord⟩ := State.domainStart_record_own hp
    have hbefore : ((s.beforeChoice p.screen).record h).generation = (s.record h).generation :=
      (State.applyArmed_generation ..).trans hhanded
    have hafter : ((s.domainStart (screenDomain p.screen)).record h).generation =
        (((s.beforeChoice p.screen).takeChoice p.screen).record h).generation := by
      rw [hrecord, State.composerStart_generation]
      rfl
    have hchoice : (∃ q, s.placement h = some q ∧ screenDomain q.screen = screenDomain p.screen ∧ isRearScreen q.screen = true ∧
        ∃ k, ((s.beforeChoice q.screen).link q.screen).pendingChoice = some k ∧ (s.beforeChoice q.screen).ChoiceReaches q.screen k h) ↔
        isRearScreen p.screen = true ∧ ∃ k, ((s.beforeChoice p.screen).link p.screen).pendingChoice = some k ∧
          (s.beforeChoice p.screen).ChoiceReaches p.screen k h := by
      constructor
      · rintro ⟨q, hq, -, hrest⟩
        obtain rfl := Option.some.inj (hp.symm.trans hq)
        exact hrest
      · exact fun hrest => ⟨p, hp, rfl, hrest⟩
    refine GenerationBy.congr ?_ hchoice
    unfold GenerationBy
    rw [hafter, ← hbefore]
    obtain ⟨htaken, hg⟩ | ⟨hkept, hg⟩ := (s.beforeChoice p.screen).takeChoice_generation p.screen h
    · exact ⟨fun _ => hg, fun hn => absurd htaken hn⟩
    · exact ⟨fun ht => absurd ht hkept, fun _ => hg⟩
  · refine .of_not (fun ⟨p, hp, hd, _⟩ => hown ⟨p, hp, hd⟩) ?_
    rw [State.domainStart_record_other fun p hp hd => hown ⟨p, hp, hd⟩]

end Sys2Proof.Machine
end

section
/-! SUPPORT. Which command advances a generation (R2, R18, R20, R21), with O39. -/

namespace Sys2Proof.Machine
open Sys2Proof.Safety

/-! ### Codes of a refusal -/

theorem recordFault_ne_ok {r : Record} {g : BitVec 8} {u : Bool} : recordFault r g u ≠ some .ok := by
  intro h
  unfold recordFault at h
  split at h
  · cases h
  · split_ifs at h <;> cases h

theorem State.amendedImage_ne_ok {s : State} {p : Placement} {es : List RawField} : s.amendedImage p es ≠ .error .ok := by
  intro h
  unfold State.amendedImage at h
  split_ifs at h
  · cases h
  · cases h
  · split at h
    · cases h
    · split at h
      · rename_i hcheck
        obtain rfl := Except.error.inj h
        unfold State.checkImage imageFault at hcheck
        split_ifs at hcheck <;> cases hcheck
      · cases h

/-! ### Generations by command -/

/-- AMEND either refuses, or stages the image and advances the generation (R19, R20). -/
theorem exec_amend_cases {s t : State} (hrun : s.resetLow = false) {b g u : Byte} {es : Option (List RawField)}
    (h : exec (.amend b g u es) s = .next t) : (∃ code, code ≠ .ok ∧ t = s.respond code []) ∨
      ∃ k m body, handleOf b = some k ∧ s.placement k ≠ none ∧
        t = ((s.advanceGeneration k).modPlacement k fun p => { p with staged := m }).respond .ok body := by
  by_cases hbad : handleOf b = none ∨ yesNoOf u = none ∨ es = none
  · rw [exec_amend_bad hrun hbad] at h
    exact .inl ⟨.badField, by decide, (Host.Outcome.next.inj h).symm⟩
  · simp only [not_or, Option.ne_none_iff_exists'] at hbad
    obtain ⟨⟨k, hk⟩, ⟨unc, hu⟩, ⟨l, rfl⟩⟩ := hbad
    rw [exec_amend hrun hk hu] at h
    obtain rfl := Host.Outcome.next.inj h
    cases hfault : recordFault (s.record k) g unc with
    | some code =>
      refine .inl ⟨code, ?_, (State.recordRefused hfault l).1⟩
      rintro rfl
      exact recordFault_ne_ok hfault
    | none =>
      cases hp : s.placement k with
      | none => rw [recordFault_free hp] at hfault; cases hfault
      | some p =>
        rw [State.amendRecord_passed hfault hp]
        cases himage : s.amendedImage p l with
        | ok m => exact .inr ⟨k, m, _, hk, by simp [hp], rfl⟩
        | error code =>
          refine .inl ⟨code, ?_, rfl⟩
          rintro rfl
          exact State.amendedImage_ne_ok himage

/-- RETIRE either refuses, frees a NEW record, or stages the retirement of a LIVE one and advances its generation (R21). -/
theorem exec_retire_cases {s t : State} (hrun : s.resetLow = false) {b g u : Byte} (h : exec (.retire b g u) s = .next t) :
    (∃ code, code ≠ .ok ∧ t = s.respond code []) ∨
    ∃ k p body, handleOf b = some k ∧ s.placement k = some p ∧
      ((p.committed = none ∧ t = (s.freeRecord k).respond .ok body) ∨
        (p.committed ≠ none ∧ t = ((s.advanceGeneration k).modPlacement k fun p => { p with retireStaged := true }).respond .ok body)) := by
  by_cases hbad : handleOf b = none ∨ yesNoOf u = none
  · rw [exec_retire_bad hrun hbad] at h
    exact .inl ⟨.badField, by decide, (Host.Outcome.next.inj h).symm⟩
  · simp only [not_or, Option.ne_none_iff_exists'] at hbad
    obtain ⟨⟨k, hk⟩, ⟨unc, hu⟩⟩ := hbad
    rw [exec_retire hrun hk hu] at h
    obtain rfl := Host.Outcome.next.inj h
    cases hfault : recordFault (s.record k) g unc with
    | some code =>
      refine .inl ⟨code, ?_, (State.recordRefused hfault []).2⟩
      rintro rfl
      exact recordFault_ne_ok hfault
    | none =>
      cases hp : s.placement k with
      | none => rw [recordFault_free hp] at hfault; cases hfault
      | some p =>
        by_cases hnew : p.committed = none
        · exact .inr ⟨k, p, _, hk, hp, .inl ⟨hnew, State.retireRecord_new hfault hp hnew⟩⟩
        · exact .inr ⟨k, p, _, hk, hp, .inr ⟨hnew, State.retireRecord_live hfault hp hnew⟩⟩

/-- AMEND and RETIRE apart, which rows advance a generation: OPEN that of the record it takes, a frame start those of the records its choices are
applied to (R2, R18, R47). -/
theorem Effect.generation {s t : State} {c : Instr} (he : Effect s c t) (hrelease : c ≠ .resetnRelease)
    (hamend : ∀ b g u es, c ≠ .amend b g u es) (hretire : ∀ b g u, c ≠ .retire b g u) (h : Handle) :
    GenerationBy ((∃ a b d m, c = .openPlacement a b d m ∧ s.placement h = none ∧ t.placement h ≠ none) ∨ ChoiceApplied s t h) s t h := by
  have hpending := fun hc x => he.pendingChoice hrelease hc (sc := x)
  have keep : ∀ {u : State}, (∀ x, (u.link x).pendingChoice = none → (s.link x).pendingChoice = none) →
      (s.placement h = none → u.placement h = none) → (u.record h).generation = (s.record h).generation →
      GenerationBy ((∃ a b d m, c = .openPlacement a b d m ∧ s.placement h = none ∧ u.placement h ≠ none) ∨ ChoiceApplied s u h) s u h := by
    intro u hlink hfree hsame
    refine .of_not ?_ hsame
    rintro (⟨-, -, -, -, -, hnone, hopen⟩ | ⟨sc, k, -, -, hk, hnone, -⟩)
    · exact hopen (hfree hnone)
    · rw [hlink sc hnone] at hk
      cases hk
  cases he with
  | resetReleased => exact absurd rfl hrelease
  | amended => exact absurd rfl (hamend _ _ _ _)
  | freed => exact absurd rfl (hretire _ _ _)
  | retired => exact absurd rfl (hretire _ _ _)
  | @domainStarted _ d hc =>
    refine GenerationBy.congr (s.domainStart_generation d h) (or_iff_right ?_)
    rintro ⟨a, b, e, m, rfl, -⟩
    cases hc
  | @opened a b e raw sc cls sel m k body _ _ hfree =>
    have hnone := (State.lowestFree_eq_some.1 hfree).1
    by_cases hk : h = k
    · subst hk
      refine ⟨fun _ => by simp, fun hn => absurd (.inl ⟨a, b, e, raw, rfl, hnone, by simp⟩) hn⟩
    · exact keep (hpending rfl) (fun hp => by simpa [hk] using hp) (by simp [hk])
  | unchanged => exact keep (fun _ hx => hx) id rfl
  | answered => exact keep (fun _ hx => hx) id rfl
  | @armed _ named => exact keep (hpending rfl) (fun hp => by rw [State.armed_placement, hp]; rfl) (by rw [State.respond_record, State.arm_record])
  | freezeRequested hc =>
    have hframe : isFrameStart c = false := by obtain ⟨b, rfl | rfl⟩ := hc <;> rfl
    exact keep (hpending hframe) (fun hp => by rw [State.respond_placement, State.modPlacement_placement]; split <;> simp_all)
      (by rw [State.respond_record, State.modPlacement_generation])
  | resetAsserted =>
    exact keep (hpending rfl) (fun hp => by rw [← State.record_body, State.assertReset_record, hp]; rfl) (by rw [State.assertReset_record])
  | noticeTaken | masked | fetched => exact keep (hpending rfl) id rfl
  | frameStarted => exact keep (hpending rfl) (fun hp => by rw [State.reportStarts_frame]; simpa using hp) (by rw [State.reportStarts_frame]; simp)
  | sourceConfigured | sourceRestarted | screenConfigured | toneStored | linkEnabled | linkDisabled | linkReset | resetRenewed | domainSet
  | lineTaken | frameEnded | expired | lineHanded | returnTaken =>
    exact keep (hpending rfl) (fun hp => by simpa using hp) (by simp)

end Sys2Proof.Machine

namespace Sys2Proof.Safety

open Sys2Proof.Machine

/-- No row but a frame start takes a choice, so none is applied by a command (R46). -/
theorem not_choiceApplied {s t : State} {c : Instr} (he : Effect s c t) (hrelease : c ≠ .resetnRelease) (hc : isFrameStart c = false)
    (h : Handle) : ¬ ChoiceApplied s t h := by
  rintro ⟨sc, k, -, -, hk, hnone, -⟩
  rw [he.pendingChoice hrelease hc hnone] at hk
  cases hk

/-- The first part of O39: AMEND and RETIRE by their own cases, every other row by its effect. -/
theorem generation_advances {c : Instr} {s t : State} (h : Handle) (hrelease : c ≠ .resetnRelease) (ht : exec c s = .next t) :
    GenerationBy
      ((∃ a b d m, c = .openPlacement a b d m ∧ s.placement h = none ∧ t.placement h ≠ none) ∨
        (s.resetLow = false ∧ ∃ b g u es, c = .amend b g u es ∧ handleOf b = some h ∧ t.port.buffer.map Response.code = some .ok) ∨
        (s.resetLow = false ∧ ∃ b g u p, c = .retire b g u ∧ handleOf b = some h ∧ s.placement h = some p ∧ p.committed ≠ none ∧
          t.port.buffer.map Response.code = some .ok) ∨
        ChoiceApplied s t h) s t h := by
  have he := exec_effect ht
  by_cases hamend : ∃ b g u es, c = .amend b g u es
  · obtain ⟨b, g, u, es, rfl⟩ := hamend
    have hchoice := not_choiceApplied he hrelease rfl h
    cases hrun : s.resetLow with
    | true =>
      obtain rfl := Host.Outcome.next.inj (ht.symm.trans (exec_resetLow (by simp) hrun))
      exact .of_not (by simp [hchoice]) rfl
    | false =>
      obtain ⟨code, hcode, rfl⟩ | ⟨k, m, body, hk, -, rfl⟩ := exec_amend_cases hrun ht
      · exact .of_not (by simp [hchoice, hcode]) rfl
      · by_cases hh : h = k
        · subst hh
          exact ⟨fun _ => by rw [State.respond_record, State.modPlacement_generation]; simp, fun hn => absurd (by simp [hk]) hn⟩
        · refine .of_not ?_ (by rw [State.respond_record, State.modPlacement_generation]; simp [hh])
          simp [hchoice, hk, Ne.symm hh]
  · by_cases hretire : ∃ b g u, c = .retire b g u
    · obtain ⟨b, g, u, rfl⟩ := hretire
      have hchoice := not_choiceApplied he hrelease rfl h
      cases hrun : s.resetLow with
      | true =>
        obtain rfl := Host.Outcome.next.inj (ht.symm.trans (exec_resetLow (by simp) hrun))
        exact .of_not (by simp [hchoice]) rfl
      | false =>
        obtain ⟨code, hcode, rfl⟩ | ⟨k, p, body, hk, hp, ⟨hnew, rfl⟩ | ⟨hlive, rfl⟩⟩ := exec_retire_cases hrun ht
        · exact .of_not (by simp [hchoice, hcode]) rfl
        · refine .of_not ?_ (by rw [State.respond_record, State.freeRecord_generation])
          rintro (⟨_, _, _, _, hc, -⟩ | ⟨-, _, _, _, _, hc, -⟩ | ⟨-, _, _, _, q, hc, hkh, hq, hlive, -⟩ | hc)
          · cases hc
          · cases hc
          · cases hc
            obtain rfl := Option.some.inj (hk.symm.trans hkh)
            obtain rfl := Option.some.inj (hp.symm.trans hq)
            exact hlive hnew
          · exact hchoice hc
        · by_cases hh : h = k
          · subst hh
            exact ⟨fun _ => by rw [State.respond_record, State.modPlacement_generation]; simp, fun hn => absurd (by simp [hk, hp, hlive]) hn⟩
          · refine .of_not ?_ (by rw [State.respond_record, State.modPlacement_generation]; simp [hh])
            simp [hchoice, hk, Ne.symm hh]
    · have hgeneration := he.generation hrelease (fun b g u es hc => hamend ⟨b, g, u, es, hc⟩) (fun b g u hc => hretire ⟨b, g, u, hc⟩) h
      refine GenerationBy.congr hgeneration ?_
      constructor
      · rintro (hopen | ⟨-, b, g, u, es, hc, -⟩ | ⟨-, b, g, u, p, hc, -⟩ | hchoice)
        · exact .inl hopen
        · exact absurd ⟨b, g, u, es, hc⟩ hamend
        · exact absurd ⟨b, g, u, hc⟩ hretire
        · exact .inr hchoice
      · exact Or.imp_right fun hchoice => .inr (.inr hchoice)

/-- What a reachable choice does at the store: the slot its record gives up loses that holder (R47, R80, R81). -/
theorem applyChoice_slot {s : State} {sc : Screen} {h : Handle} {p : Placement} (hp : s.placement h = some p) (m : Image) (i : InputId) (r : SlotRef) :
    (s.applyChoice sc h m i).slot r =
      if m.source ≠ .input i ∧ p.latched = some r then (s.slot r).release else s.slot r := by
  have hchosen : ((s.modPlacement h (Placement.choose i)).advanceGeneration h).placement h = some (p.choose i) := by simp [hp]
  have hlatch : ((s.modPlacement h (Placement.choose i)).advanceGeneration h).latchOf h = p.latched := by
    simp [State.latchOf, hchosen, Placement.choose]
  unfold State.applyChoice
  by_cases hsource : m.source = .input i
  · simp [hsource]
  · simp only [hsource, if_false, not_false_eq_true, true_and, ne_eq, State.raise_rest]
    rw [State.sourceChanged]
    simp only [State.modPlacement_rest]
    rw [State.setLatch_slot_eq hchosen none r, hlatch]
    cases p.latched <;> simp

/-- A pending choice of an entry of the committed list is applied (R46, R47). -/
theorem takeChoice_applied {s : State} {sc : Screen} {k : Nat} {h : Handle} {p : Placement} {m : Image} {i : InputId}
    (hrear : isRearScreen sc = true) (hk : (s.link sc).pendingChoice = some k) (hsel : s.liveSelectable sc = some h)
    (hp : s.placement h = some p) (hm : p.committed = some m) (hi : (m.choices.getD [])[k]? = some i) :
    s.takeChoice sc = (s.modLink sc fun l => { l with pendingChoice := none }).applyChoice sc h m i :=
  State.takeChoice_reached hrear hk (State.reachable_eq_some.2 ⟨hsel, by rw [hp]; exact hm, hi⟩)

/-- Settles O39: the rows that advance a generation, and step 2 of a frame start by whether the choice reaches a record. -/
theorem generationsAdvanceOnTheirEvents : Obligations.GenerationsAdvanceOnTheirEvents := by
  refine ⟨fun c s t h hrelease ht advance hadvance => ?_, ?_⟩
  · obtain ⟨hgained, hkept⟩ := generation_advances h hrelease ht
    exact ⟨fun ha => hgained (hadvance.1 ha), fun hn => hkept fun ha => hn (hadvance.2 ha)⟩
  · rintro s u sc rfl
    refine ⟨State.takeChoice_idle, fun k hrear hk => ⟨fun hunreached => ?_, fun h p m i hsel hp hm hi => ?_⟩⟩
    · refine State.takeChoice_unreached hrear hk ?_
      by_contra hreach
      obtain ⟨⟨h, m, i⟩, hreach⟩ := Option.ne_none_iff_exists'.1 hreach
      obtain ⟨hsel, hm, hi⟩ := State.reachable_eq_some.1 hreach
      obtain ⟨p, hp, hcommitted⟩ := Option.bind_eq_some_iff.1 hm
      exact absurd (List.getElem?_eq_some_iff.1 hi).1 (Nat.not_lt.2 (hunreached h p m hsel hp hcommitted))
    · have hinputs := s.takeChoice_sameInputs sc
      rw [takeChoice_applied hrear hk hsel hp hm hi] at hinputs ⊢
      refine ⟨State.record_eq ?_ ?_, fun x hx => State.record_ext ?_ ?_, fun r => ?_, hinputs, fun hlaw => ?_, ?_⟩
      · rw [State.applyChoice_generation, if_pos rfl, State.modLink_record]
      · rw [State.applyChoice_placement, if_pos rfl, State.modLink_placement, hp, Option.map_some, Placement.chosen_eq i hm]
        simp [Image.choiceList]
      · rw [State.applyChoice_generation, if_neg hx, State.modLink_record]
      · rw [State.applyChoice_placement, if_neg hx, State.modLink_placement]
      · have hp' : (s.modLink sc fun l => { l with pendingChoice := none }).placement h = some p := hp
        rw [applyChoice_slot hp', Slot.release_eq]
        rfl
      · have hnoticed := (noticed_of_notices (s := s) (t := s.modLink sc fun l => { l with pendingChoice := none }) (.passengerChoice sc)
          rfl).after (noticed_applyChoice (s.modLink sc fun l => { l with pendingChoice := none }) (.passengerChoice sc) sc h m i)
        exact (hnoticed.congr (iff_true_intro rfl)).count hlaw
      · rw [State.applyChoice_frame]
        rfl

end Sys2Proof.Safety
end

section
/-! SUPPORT. View decisions (R126 to R137): the decision of a record from the fit slots of the inputs, and its notice through a whole domain frame
start (R139, R181); with O40. -/

namespace Sys2Proof.Machine
open Sys2Proof.Safety

/-! ### The answers of the store, by the fit slots -/

/-- A choice of slot for each input that picks its latest slot where the input is LOCKED, and none otherwise (R80, R128). -/
def State.FitSlots (s : State) (fit : InputId → Option SlotRef) : Prop :=
  ∀ i r, fit i = some r ↔ (s.input i).monitor = .locked ∧ r.input = i ∧ (s.slot r).latest = true

/-- The store answers for an input with its fit slot and that slot's frame number (R128, R129). -/
theorem State.FitSlots.answer {s : State} {fit : InputId → Option SlotRef} (h : s.FitSlots fit) (i : InputId) :
    (s.answer i).fitSlot = (fit i).map fun r => (r, (s.slot r).frameNumber) := by
  cases hlatest : (s.input i).latest with
  | none =>
    have hnone : fit i = none := by
      refine Option.eq_none_iff_forall_ne_some.2 fun r hr => ?_
      obtain ⟨-, rfl, hmark⟩ := (h i r).1 hr
      exact List.find?_eq_none.1 hlatest r.index (mem_allSlots _) hmark
    simp [State.answer, SourceAnswer.fitSlot, hlatest, hnone]
  | some k =>
    have hmark : (s.slot ⟨i, k⟩).latest = true := List.find?_some (p := fun k => ((s.input i).slots.get k).latest) hlatest
    by_cases hlocked : (s.input i).monitor = .locked
    · have hfit : fit i = some ⟨i, k⟩ := (h i ⟨i, k⟩).2 ⟨hlocked, rfl, hmark⟩
      simp [State.answer, SourceAnswer.fitSlot, hlatest, hfit, hlocked]
      rfl
    · have hnone : fit i = none := Option.eq_none_iff_forall_ne_some.2 fun r hr => hlocked ((h i r).1 hr).1
      simp [State.answer, SourceAnswer.fitSlot, hlocked, hnone]

/-! ### Freshness (R129) -/

/-- A frame number the record has not drawn makes it fresh (R129). -/
theorem next_of_fresh {p : Placement} {a : SourceAnswer} {r : SlotRef} {n : Nat} (h : a.fitSlot = some (r, n)) (hn : n ≠ p.lastFrame) :
    nextAge p a = 0 ∧ nextLastFrame p a = n := by
  simp [nextAge, nextLastFrame, h, hn]

/-- Without a new frame the record grows older (R129). -/
theorem next_of_stale {p : Placement} {a : SourceAnswer} (h : a.fitSlot = none ∨ ∃ r, a.fitSlot = some (r, p.lastFrame)) :
    nextAge p a = min 255 (p.age + 1) ∧ nextLastFrame p a = p.lastFrame := by
  obtain h | ⟨r, h⟩ := h <;> simp [nextAge, nextLastFrame, h, satSucc]

/-! ### The input branch (R128 to R134) -/

theorem viewDecision_frozen {p : Placement} (hfrozen : p.frozen = true) (m : Image) (answers : InputId → SourceAnswer) :
    viewDecision p m answers = ⟨if p.latched = none then .filled else .frozen, p.latched, p.age, p.lastFrame⟩ := by
  cases hl : p.latched <;> simp [viewDecision, hfrozen, frozenBranch, hl]

theorem viewDecision_solid {p : Placement} (hfrozen : p.frozen = false) {m : Image} (hsource : m.source = .solid)
    (answers : InputId → SourceAnswer) : viewDecision p m answers = ⟨.showing, none, p.age, p.lastFrame⟩ := by
  simp [viewDecision, hfrozen, hsource]

/-- The age and the last source frame number of an input's record, starved or not (R129). -/
theorem viewDecision_age {p : Placement} (hfrozen : p.frozen = false) {m : Image} {i : InputId} (hsource : m.source = .input i)
    (answers : InputId → SourceAnswer) :
    (viewDecision p m answers).age = nextAge p (answers i) ∧ (viewDecision p m answers).lastFrame = nextLastFrame p (answers i) := by
  obtain ⟨hf, -⟩ | ⟨-, hs, -⟩ | ⟨j, -, hj, ⟨r, n, -, -, hd⟩ | ⟨-, hd⟩⟩ := viewDecision_cases p m answers
  · rw [hfrozen] at hf; cases hf
  · rw [hsource] at hs; cases hs
  · obtain rfl := Source.input.inj (hsource.symm.trans hj)
    rw [hd]
    exact ⟨rfl, rfl⟩
  · obtain rfl := Source.input.inj (hsource.symm.trans hj)
    rw [hd]
    exact ⟨rfl, rfl⟩

/-- A fit source within the hold limit is shown (R130). -/
theorem viewDecision_shown {p : Placement} (hfrozen : p.frozen = false) {m : Image} {i : InputId} (hsource : m.source = .input i)
    {answers : InputId → SourceAnswer} {r : SlotRef} {n : Nat} (hfit : (answers i).fitSlot = some (r, n))
    (hage : m.holdLimit = 0 ∨ nextAge p (answers i) < m.holdLimit) :
    (viewDecision p m answers).view = .showing ∧ (viewDecision p m answers).slot = some r := by
  obtain ⟨hf, -⟩ | ⟨-, hs, -⟩ | ⟨j, -, hj, ⟨r', n', hr', -, hd⟩ | ⟨hstarved, -⟩⟩ := viewDecision_cases p m answers
  · rw [hfrozen] at hf; cases hf
  · rw [hsource] at hs; cases hs
  · obtain rfl := Source.input.inj (hsource.symm.trans hj)
    rw [hfit] at hr'
    obtain ⟨rfl, -⟩ := Prod.mk.inj (Option.some.inj hr')
    rw [hd]
    exact ⟨rfl, rfl⟩
  · obtain rfl := Source.input.inj (hsource.symm.trans hj)
    rw [hfit] at hstarved
    obtain hnone | ⟨hlimit, hold⟩ := hstarved
    · cases hnone
    · omega

/-- A starved record takes its substitute (R130). -/
theorem viewDecision_starved {p : Placement} (hfrozen : p.frozen = false) {m : Image} {i : InputId} (hsource : m.source = .input i)
    {answers : InputId → SourceAnswer}
    (hstarved : (answers i).fitSlot = none ∨ (m.holdLimit ≠ 0 ∧ m.holdLimit ≤ nextAge p (answers i))) :
    ((viewDecision p m answers).view, (viewDecision p m answers).slot) = substitute i m (candidate p (answers i)) answers := by
  obtain ⟨hf, -⟩ | ⟨-, hs, -⟩ | ⟨j, -, hj, ⟨r, n, hr, hage, -⟩ | ⟨-, hd⟩⟩ := viewDecision_cases p m answers
  · rw [hfrozen] at hf; cases hf
  · rw [hsource] at hs; cases hs
  · obtain rfl := Source.input.inj (hsource.symm.trans hj)
    rw [hr] at hstarved
    obtain hnone | ⟨hlimit, hold⟩ := hstarved
    · cases hnone
    · omega
  · obtain rfl := Source.input.inj (hsource.symm.trans hj)
    rw [hd]

theorem candidate_eq (p : Placement) {a : SourceAnswer} {fit : Option SlotRef} {number : SlotRef → Nat}
    (h : a.fitSlot = fit.map fun r => (r, number r)) : candidate p a = fit.or p.latched := by
  cases fit <;> simp [candidate, h]

/-- The substitute under each policy, from the candidate slot and the fit slot of the alternate source (R131 to R134). -/
theorem substitute_spec {i : InputId} {m : Image} {held : Option SlotRef} {answers : InputId → SourceAnswer} {fit : InputId → Option SlotRef}
    {number : SlotRef → Nat} (hfit : ∀ j, (answers j).fitSlot = (fit j).map fun r => (r, number r)) {v : View} {slot : Option SlotRef}
    (h : (v, slot) = substitute i m held answers) :
    (m.policy = .hold → (∀ r, held = some r → r.input = i → v = .holding ∧ slot = some r) ∧
      ((∀ r, held = some r → r.input ≠ i) → v = .filled ∧ slot = none)) ∧
    (m.policy = .fill → v = .filled ∧ slot = none) ∧
    (m.policy = .alternate → (∀ j r, m.alternate = some j → fit j = some r → v = .alternate ∧ slot = some r) ∧
      ((∀ j, m.alternate = some j → fit j = none) → v = .filled ∧ slot = none)) ∧
    (m.policy = .hide → v = .hidden ∧ slot = none) := by
  obtain ⟨hp, r, hr, hi, he⟩ | ⟨hp, j, r, n, hj, hr, he⟩ | ⟨hp, he⟩ | ⟨hwhy, he⟩ :=
    substitute_cases (i := i) (m := m) (held := held) (answers := answers) <;> rw [he] at h <;> obtain ⟨rfl, rfl⟩ := Prod.mk.inj h
  · refine ⟨fun _ => ⟨fun r' hr' _ => ⟨rfl, hr ▸ hr'⟩, fun hno => absurd hi (hno r hr)⟩, ?_, ?_, ?_⟩ <;> simp [hp]
  · rw [hfit] at hr
    obtain ⟨r', hr', he'⟩ := Option.map_eq_some_iff.1 hr
    obtain ⟨rfl, -⟩ := Prod.mk.inj he'
    refine ⟨by simp [hp], by simp [hp], fun _ => ⟨fun j' x hj' hx => ⟨rfl, ?_⟩, fun hno => ?_⟩, by simp [hp]⟩
    · obtain rfl := Option.some.inj (hj.symm.trans hj')
      exact hr'.symm.trans hx
    · rw [hno j hj] at hr'
      cases hr'
  · refine ⟨?_, ?_, ?_, fun _ => ⟨rfl, rfl⟩⟩ <;> simp [hp]
  · refine ⟨fun hp => ⟨fun r hr hi => ?_, fun _ => ⟨rfl, rfl⟩⟩, fun _ => ⟨rfl, rfl⟩, fun hp => ⟨fun j r hj hr => ?_, fun _ => ⟨rfl, rfl⟩⟩,
      fun hp => ?_⟩
    · obtain ⟨-, hno⟩ | hf | ⟨ha, -⟩ := hwhy
      · exact absurd hi (hno r hr)
      · rw [hp] at hf; cases hf
      · rw [hp] at ha; cases ha
    · obtain ⟨hh, -⟩ | hf | ⟨-, hno⟩ := hwhy
      · rw [hp] at hh; cases hh
      · rw [hp] at hf; cases hf
      · have hnone := hno j hj
        rw [hfit, hr] at hnone
        cases hnone
    · obtain ⟨hh, -⟩ | hf | ⟨ha, -⟩ := hwhy
      · rw [hp] at hh; cases hh
      · rw [hp] at hf; cases hf
      · rw [hp] at ha; cases ha

/-! ### The record decided -/

theorem State.decideViews_record_other {s : State} {sc : Screen} {h : Handle}
    (hother : ∀ p, s.placement h = some p → p.screen ≠ sc ∨ p.committed = none) : (s.decideViews sc).record h = s.record h := by
  refine State.record_ext (State.decideViews_generation ..) ?_
  rw [State.decideViews_placement, if_neg]
  intro hmem
  obtain ⟨p, hp, hsc, hlive⟩ := State.mem_liveList_iff.1 hmem
  exact (hother p hp).elim (fun hne => hne hsc) hlive

theorem State.decideViews_record_live {s : State} {sc : Screen} {h : Handle} {p : Placement} {m : Image} (hp : s.placement h = some p)
    (hsc : p.screen = sc) (hm : p.committed = some m) :
    (s.decideViews sc).record h = { s.record h with body := some { p with
      view := some (viewDecision p m s.answer).view, latched := (viewDecision p m s.answer).slot, age := (viewDecision p m s.answer).age
      lastFrame := (viewDecision p m s.answer).lastFrame } } := by
  refine State.record_eq (State.decideViews_generation ..) ?_
  rw [State.decideViews_placement, if_pos (State.mem_liveList_iff.2 ⟨p, hp, hsc, by simp [hm]⟩), hp, Option.map_some,
    Placement.decided_eq _ hm]

/-! ### Records before the view decisions -/

/-- Application, a choice and a freeze request leave a record its class and, but for one that joins, its view (R41, R47, R135). -/
theorem State.beforeViews_cases {s : State} {sc : Screen} {n : Nat} {h : Handle} {x : Placement}
    (hx : (s.beforeViews sc n).placement h = some x) :
    ∃ p, s.placement h = some p ∧ x.screen = p.screen ∧ x.cls = p.cls ∧ (x.view = p.view ∨ (p.committed = none ∧ x.view = none)) := by
  have hafter : ∀ y, s.afterApplication sc n h = some y →
      ∃ p, s.placement h = some p ∧ y.screen = p.screen ∧ y.cls = p.cls ∧ (y.view = p.view ∨ (p.committed = none ∧ y.view = none)) := by
    intro y hy
    obtain ⟨p, hp, hy⟩ := Option.bind_eq_some_iff.1 hy
    split at hy
    · obtain ⟨hsc, hcls, -, -, -, -, -, -, -, -, ⟨hnew, hview, -⟩ | ⟨m, -, hview, -⟩⟩ := Placement.applied_eq_some hy
      · exact ⟨p, hp, hsc, hcls, .inr ⟨hnew, hview⟩⟩
      · exact ⟨p, hp, hsc, hcls, .inl hview⟩
    · obtain rfl := Option.some.inj hy
      exact ⟨p, hp, rfl, rfl, .inl rfl⟩
  have happlied : ∀ y, (s.applyArmed sc n).placement h = some y →
      ∃ p, s.placement h = some p ∧ y.screen = p.screen ∧ y.cls = p.cls ∧ (y.view = p.view ∨ (p.committed = none ∧ y.view = none)) := by
    intro y hy
    obtain he | ⟨z, j, hz, -, he⟩ := s.applyArmed_placement_cases sc n h
    · exact hafter y (he ▸ hy)
    · obtain rfl := Option.some.inj (he.symm.trans hy)
      exact hafter z hz
  have hchosen : ∀ y, ((s.applyArmed sc n).takeChoice sc).placement h = some y →
      ∃ p, s.placement h = some p ∧ y.screen = p.screen ∧ y.cls = p.cls ∧ (y.view = p.view ∨ (p.committed = none ∧ y.view = none)) := by
    intro y hy
    obtain he | ⟨z, m, i, hz, -, -, hm, -, he⟩ := (s.applyArmed sc n).takeChoice_placement_cases sc h
    · exact happlied y (he ▸ hy)
    · obtain rfl := Option.some.inj (he.symm.trans hy)
      rw [Placement.chosen_eq i hm]
      exact happlied z hz
  simp only [State.beforeViews, State.takeTone_rest] at hx
  rw [State.takeFreezes_placement] at hx
  split at hx
  · obtain ⟨y, hy, rfl⟩ := Option.map_eq_some_iff.1 hx
    rw [Placement.freezeTaken_eq]
    exact hchosen y hy
  · exact hchosen x hx

/-- A record that application frees stays free (R42). -/
theorem State.beforeViews_none {s : State} {sc : Screen} {n : Nat} {h : Handle} (hnone : (s.applyArmed sc n).placement h = none) :
    (s.beforeViews sc n).placement h = none := by
  have hchoice : ((s.applyArmed sc n).takeChoice sc).placement h = none := by
    obtain he | ⟨p, m, i, hp, -⟩ := (s.applyArmed sc n).takeChoice_placement_cases sc h
    · rw [he, hnone]
    · rw [hnone] at hp
      cases hp
  simp only [State.beforeViews, State.takeTone_rest]
  rw [State.takeFreezes_placement, hchoice]
  simp

end Sys2Proof.Machine

namespace Sys2Proof.Safety
open Sys2Proof.Machine

/-! ### Notices of one record through a composer's frame start -/

/-- The key under which changes of the record's view are noticed (R139). -/
def viewKeyOf (h : Handle) (p : Placement) : NoticeKey := if p.cls = .safety then .safetyView h else .view h

theorem viewKeyOf_ofRecord (h : Handle) (p : Placement) : NoticeKey.OfRecord (viewKeyOf h p) h := by
  unfold viewKeyOf NoticeKey.OfRecord
  split <;> simp

theorem viewNotice_eq_some {h : Handle} {p : Placement} {v : View} {k : NoticeKey} :
    viewNotice h p v = some k ↔ p.view ≠ none ∧ some v ≠ p.view ∧ viewKeyOf h p = k := by
  unfold viewNotice viewKeyOf
  cases hv : p.view with
  | none => simp
  | some old =>
    by_cases he : old = v
    · simp [he]
    · simp [he, Ne.symm he]

theorem noticed_freezesAndTone (s : State) (sc : Screen) (k : NoticeKey) : Noticed k False s ((s.takeFreezes sc).takeTone sc) :=
  noticed_of_notices k (by simp)

/-- Before the view decisions a key of a record is raised by no step, where no armed retirement of its record is applied (R42, R44, R47). -/
theorem noticed_beforeViews (s : State) (sc : Screen) (n : Nat) {k : NoticeKey} {h : Handle} (hk : NoticeKey.OfRecord k h)
    (hstays : ∀ p, s.placement h = some p → p.screen = sc → p.armed = true → p.retireStaged = false) :
    Noticed k False s (s.beforeViews sc n) := by
  have happly : Noticed k False s (s.applyArmed sc n) :=
    (noticed_applyArmed s sc n fun j p hj => by rw [hk.unique hj]; exact hstays p).congr (by rcases hk with rfl | rfl <;> simp)
  have hchoice := noticed_takeChoice (s.applyArmed sc n) sc (k := k) (by rcases hk with rfl | rfl <;> simp)
  exact (happly.then hchoice).then (noticed_freezesAndTone _ sc k)

theorem silent_beforeViews (s : State) (n : Nat) {k : NoticeKey} {h : Handle} (hk : NoticeKey.OfRecord k h) {p : Placement}
    (hp : s.placement h = some p) (harmed : p.armed = true) (hr : p.retireStaged = true) : Silent (s.beforeViews p.screen n) k := by
  have happly := silent_applyArmed s n hk hp harmed hr
  have hchoice := noticed_takeChoice (s.applyArmed p.screen n) p.screen (k := k) (by rcases hk with rfl | rfl <;> simp)
  exact (hchoice.then (noticed_freezesAndTone _ p.screen k)).silent id happly

/-- The view decisions raise a key of a record for that record's own decision alone (R139). -/
theorem noticed_decided (s : State) (sc : Screen) (n : Nat) {k : NoticeKey} {h : Handle} (hk : NoticeKey.OfRecord k h) :
    Noticed k (h ∈ (s.beforeViews sc n).liveList sc ∧ State.decisionNotice (s.beforeViews sc n) h = some k) (s.beforeViews sc n)
      (s.composerStart sc n) := by
  have hdecide := noticed_decideViews (s.beforeViews sc n) sc k
  refine (hdecide.then (noticed_of_notices k (State.beginComposition_rest ..).2.2.2.2.2.2.2.1)).congr ⟨?_, fun hh => ⟨h, hh⟩⟩
  rintro ⟨j, hj, hn⟩
  obtain rfl := hk.unique (decisionNotice_ofRecord hn)
  exact ⟨hj, hn⟩

/-- A composer's frame start raises no key of a record of another screen (R39). -/
theorem noticed_composerStart_other {s : State} {sc : Screen} (n : Nat) {k : NoticeKey} {h : Handle} (hk : NoticeKey.OfRecord k h)
    (hother : ∀ p, s.placement h = some p → p.screen ≠ sc) : Noticed k False s (s.composerStart sc n) := by
  have hbefore := noticed_beforeViews s sc n hk fun p hp hsc => absurd hsc (hother p hp)
  refine hbefore.then ((noticed_decided s sc n hk).congr (iff_false_intro ?_))
  rintro ⟨hmem, -⟩
  obtain ⟨x, hx, hsc, -⟩ := State.mem_liveList_iff.1 hmem
  obtain ⟨p, hp, hscreen, -⟩ := State.beforeViews_cases hx
  exact hother p hp (hscreen ▸ hsc)

/-- From `s` to `t` a change of the record's view is noticed once under the key, and no entry of it is left once the record is FREE (R139, R181). -/
def ViewNoticed (k : NoticeKey) (h : Handle) (p : Placement) (s t : State) : Prop :=
  (∀ q, t.placement h = some q → Noticed k (p.view ≠ none ∧ q.view ≠ p.view) s t) ∧ (t.placement h = none → Silent t k)

theorem ViewNoticed.of_kept {k : NoticeKey} {h : Handle} {p : Placement} {s t : State} (ht : t.placement h = some p) (hn : Noticed k False s t) :
    ViewNoticed k h p s t := by
  refine ⟨fun q hq => hn.congr ?_, fun hnone => by rw [ht] at hnone; cases hnone⟩
  obtain rfl := Option.some.inj (ht.symm.trans hq)
  simp

theorem ViewNoticed.after {k : NoticeKey} {h : Handle} {p : Placement} {s t u : State} (hn : Noticed k False s t) (hv : ViewNoticed k h p t u) :
    ViewNoticed k h p s u := ⟨fun q hq => hn.after (hv.1 q hq), hv.2⟩

theorem ViewNoticed.then {k : NoticeKey} {h : Handle} {p : Placement} {s t u : State} (hv : ViewNoticed k h p s t) (hn : Noticed k False t u)
    (hsame : u.placement h = t.placement h) : ViewNoticed k h p s u :=
  ⟨fun q hq => (hv.1 q (hsame ▸ hq)).then hn, fun hnone => hn.silent id (hv.2 (hsame ▸ hnone))⟩

/-- The composer of a record's screen notices its change of view (R139), or withdraws its entries with the record (R181). -/
theorem viewNoticed_composerStart {s : State} {h : Handle} {p : Placement} (hp : s.placement h = some p) (hnew : NewRecord p) (n : Nat) :
    ViewNoticed (viewKeyOf h p) h p s (s.composerStart p.screen n) := by
  have hk := viewKeyOf_ofRecord h p
  have hdecided := noticed_decided s p.screen n hk
  by_cases hleaves : p.armed = true ∧ p.retireStaged = true
  · obtain ⟨harmed, hr⟩ := hleaves
    have happlied : (s.applyArmed p.screen n).placement h = none := by
      obtain ⟨j, hrecord⟩ := State.applyArmed_record_armed hp harmed n
      rw [Placement.applied_retired hr] at hrecord
      exact congrArg Record.body hrecord
    have hnone := State.beforeViews_none happlied
    have hgone : h ∉ (s.beforeViews p.screen n).liveList p.screen := fun hmem => by
      obtain ⟨x, hx, -⟩ := State.mem_liveList_iff.1 hmem
      rw [hnone] at hx
      cases hx
    refine ⟨fun q hq => ?_, fun _ => hdecided.silent (fun hn => hgone hn.1) (silent_beforeViews s n hk hp harmed hr)⟩
    rw [State.composerStart_placement, if_neg hgone, hnone] at hq
    cases hq
  · have hstays : ∀ p', s.placement h = some p' → p'.screen = p.screen → p'.armed = true → p'.retireStaged = false := by
      intro p' hp' _ harmed
      obtain rfl := Option.some.inj (hp.symm.trans hp')
      exact Bool.eq_false_iff.2 fun hr => hleaves ⟨harmed, hr⟩
    have hbefore := noticed_beforeViews s p.screen n hk hstays
    refine ⟨fun q hq => hbefore.after (hdecided.congr ?_), fun hnone => ?_⟩
    · have hview : ∀ x, (s.beforeViews p.screen n).placement h = some x → x.cls = p.cls ∧ x.view = p.view := by
        intro x hx
        obtain ⟨p', hp', -, hcls, hview⟩ := State.beforeViews_cases hx
        obtain rfl := Option.some.inj (hp.symm.trans hp')
        refine ⟨hcls, hview.elim id fun ⟨hnone, hxv⟩ => ?_⟩
        obtain ⟨-, -, -, hpv, -⟩ := hnew hnone
        rw [hxv, hpv]
      rw [State.composerStart_placement] at hq
      split at hq
      · rename_i hmem
        obtain ⟨x, hx, rfl⟩ := Option.map_eq_some_iff.1 hq
        obtain ⟨hcls, hxv⟩ := hview x hx
        obtain ⟨x', hx', -, hlive⟩ := State.mem_liveList_iff.1 hmem
        obtain rfl := Option.some.inj (hx.symm.trans hx')
        obtain ⟨m, hm⟩ := Option.ne_none_iff_exists'.1 hlive
        have hkey : viewKeyOf h x = viewKeyOf h p := by unfold viewKeyOf; rw [hcls]
        have hnotice : State.decisionNotice (s.beforeViews p.screen n) h = viewNotice h x (viewDecision x m (s.beforeViews p.screen n).answer).view := by
          simp [State.decisionNotice, hx, hm]
        rw [hnotice, viewNotice_eq_some, Placement.decided_eq _ hm, hxv]
        simp [hmem, hkey]
      · rename_i hmem
        simp [hmem, (hview q hq).2]
    · exfalso
      have houtline := s.composerStart_outline p.screen n h
      rw [hnone] at houtline
      cases harmed : p.armed with
      | false =>
        obtain ⟨j, hrecord⟩ := State.applyArmed_record_kept hp harmed p.screen n
        have happlied : (s.applyArmed p.screen n).placement h = _ := congrArg Record.body hrecord
        rw [happlied] at houtline
        cases houtline
      | true =>
        obtain ⟨j, hrecord⟩ := State.applyArmed_record_armed hp harmed n
        have hr := hstays p hp rfl harmed
        have happlied : (s.applyArmed p.screen n).placement h = _ := congrArg Record.body hrecord
        rw [happlied] at houtline
        cases hc : p.committed with
        | none => rw [Placement.applied_new hr hc] at houtline; cases houtline
        | some m => rw [Placement.applied_live hr hc] at houtline; cases houtline

/-- A domain frame start notices the change of a record's view once (R90, R139). -/
theorem viewNoticed_domainStart {s : State} (d : Domain) {h : Handle} {p : Placement} (hp : s.placement h = some p) (hnew : NewRecord p) :
    ViewNoticed (viewKeyOf h p) h p s (s.domainStart d) := by
  have hk := viewKeyOf_ofRecord h p
  have hquiet : ∀ {a b : State}, Reported (viewKeyOf h p) a b → Noticed (viewKeyOf h p) False a b := fun hr => hr.congr (by
    rcases hk with he | he <;> rw [he] <;> simp [SameWatched])
  have hwork := hquiet (reported_domainWork s d (viewKeyOf h p))
  have hpwork : (s.domainWork d).placement h = some p := by simpa using hp
  have hlinks : ∀ a : State, ∀ x y n, Noticed (viewKeyOf h p) False a ((a.linkStart x n).linkStart y n) := fun a x y n =>
    (hquiet (reported_changeLink ..)).then (hquiet (reported_changeLink ..))
  suffices hcomposers : ∀ n, ViewNoticed (viewKeyOf h p) h p (s.domainWork d)
      (((s.domainWork d).composerStart (domainScreens d).1 n).composerStart (domainScreens d).2 n) from
    (ViewNoticed.after hwork (hcomposers _)).then (hlinks _ _ _ _) (s.domainStart_placement d h)
  intro n
  by_cases hfirst : p.screen = (domainScreens d).1
  · have hsecond : ∀ q, ((s.domainWork d).composerStart (domainScreens d).1 n).placement h = some q → q.screen ≠ (domainScreens d).2 := by
      intro q hq
      obtain ⟨p', hp', hscreen, -⟩ := State.composerStart_screen hq
      obtain rfl := Option.some.inj (hp'.symm.trans hpwork)
      rw [hscreen, hfirst]
      exact domainScreens_ne d
    have hown := viewNoticed_composerStart hpwork hnew n
    rw [hfirst] at hown
    exact hown.then (noticed_composerStart_other n hk hsecond) (congrArg Record.body (State.composerStart_record_other n hsecond))
  · have hother : ∀ q, (s.domainWork d).placement h = some q → q.screen ≠ (domainScreens d).1 := fun q hq => by
      obtain rfl := Option.some.inj (hq.symm.trans hpwork)
      exact hfirst
    have hkept : ((s.domainWork d).composerStart (domainScreens d).1 n).placement h = some p :=
      (congrArg Record.body (State.composerStart_record_other n hother)).trans hpwork
    refine .after (noticed_composerStart_other n hk hother) ?_
    by_cases hsecond : p.screen = (domainScreens d).2
    · rw [← hsecond]
      exact viewNoticed_composerStart hkept hnew n
    · have hneither : ∀ q, ((s.domainWork d).composerStart (domainScreens d).1 n).placement h = some q → q.screen ≠ (domainScreens d).2 :=
        fun q hq => by
          obtain rfl := Option.some.inj (hq.symm.trans hkept)
          exact hsecond
      exact .of_kept ((congrArg Record.body (State.composerStart_record_other n hneither)).trans hkept)
        (noticed_composerStart_other n hk hneither)

/-- Settles O40: the decision by the branches of R127, and its notice as the only one of the record in a whole frame start. -/
theorem viewChangesAreNoticed : Obligations.ViewChangesAreNoticed := by
  refine ⟨fun s sc h => ⟨State.decideViews_record_other, fun p m hp hsc hm fit hfit => ?_⟩, ?_⟩
  · have hanswer := State.FitSlots.answer (s := s) hfit
    refine ⟨_, _, _, _, State.decideViews_record_live hp hsc hm, fun hfrozen => ?_, fun hfrozen hsource => ?_, fun i hfrozen hsource => ?_⟩
    · rw [viewDecision_frozen hfrozen]
      exact ⟨rfl, rfl, rfl, rfl⟩
    · rw [viewDecision_solid hfrozen hsource]
      exact ⟨rfl, rfl, rfl, rfl⟩
    · obtain ⟨hage, hlast⟩ := viewDecision_age hfrozen hsource s.answer
      have hi := hanswer i
      rw [hage, hlast]
      refine ⟨fun r hr hnumber => ?_, fun hstale => ?_, fun r hr hlimit => ?_, ?_⟩
      · rw [hr] at hi
        exact next_of_fresh hi hnumber
      · refine next_of_stale (hstale.imp (fun hnone => by rw [hi, hnone]; rfl) ?_)
        rintro ⟨r, hr, hnumber⟩
        exact ⟨r, by rw [hi, hr, ← hnumber]; rfl⟩
      · rw [hr] at hi
        exact viewDecision_shown hfrozen hsource hi hlimit
      · rintro hstarved held rfl
        have hsubstitute := viewDecision_starved hfrozen hsource (answers := s.answer)
          (hstarved.imp_left fun hnone => by rw [hi, hnone]; rfl)
        rw [candidate_eq p hi] at hsubstitute
        exact substitute_spec hanswer hsubstitute
  · rintro s t d h p hlaw hnew ht hp key rfl
    change (∀ q, _ → noticeCount t (viewKeyOf h p) = countAfter s (viewKeyOf h p) _) ∧ (_ → noticeCount t (viewKeyOf h p) = 0)
    have hnoticed : ViewNoticed (viewKeyOf h p) h p s t := by
      by_cases hstarts : s.resetLow = false ∧ (s.domain d).nextStart = s.timeBase
      · obtain ⟨hrun, hdue⟩ := hstarts
        rw [exec_domainFrameStart hrun hdue] at ht
        obtain rfl := Host.Outcome.next.inj ht
        exact viewNoticed_domainStart d hp (newLaw_iff.1 hnew h p hp)
      · have hsame : t = s := by
          cases hrun : s.resetLow with
          | true => exact (Host.Outcome.next.inj ((exec_resetLow (by simp) hrun).symm.trans ht)).symm
          | false =>
            rw [exec_domainFrameStart_notDue hrun fun hdue => hstarts ⟨hrun, hdue⟩] at ht
            exact (Host.Outcome.next.inj ht).symm
        subst hsame
        exact .of_kept hp (noticed_refl _ t)
    exact ⟨fun q hq => (hnoticed.1 q hq).count hlaw, fun hnone => noticeCount_silent (hnoticed.2 hnone)⟩

end Sys2Proof.Safety
end
